-- ==== Sys2Proof/Word.lean ====
section
/-! DEFINITION. The widths the spec gives (00_scope R9): a register is a byte, a virtual address has seven
bits, a command word and a result word have thirty-two. -/
namespace Sys2Proof

/-- A physical or virtual register, and every byte on the bus (R9). -/
abbrev Byte := BitVec 8

/-- A command word, a host register, a float group (R9). -/
abbrev Word := BitVec 32

/-- A virtual address, 0x00 to 0x7F (R9, R75). -/
abbrev VAddr := BitVec 7

end Sys2Proof
end

