-- ==== Sys2Proof/Config.lean ====
section
/-! DEFINITION. What an implementation fixes: the named constants of 00_scope R8, the parameters of R7, and
the free values. An `opaque` here has no body: nothing can be proved of its value. -/
namespace Sys2Proof

/-- TERR_W (R7): OPEN, at most 32. No body: nothing can be proved of it but its bound (log entry 8). -/
opaque Config.terrWidth : Fin 33

/-- TERR_W as a width. -/
abbrev Config.terrW : Nat := Config.terrWidth.val

/-- A transport error code, as the transport gives it (R282). -/
abbrev TErr := BitVec Config.terrW

/-- The transport's single answer to one request (R290). `ok b` answers a BusRead with the byte `b` and a
BusWrite with completion; a completion carries no byte, so `b` is then not used (log entry 7). -/
inductive Answer where
  | ok (b : Byte)
  | error (e : TErr)
  deriving DecidableEq, Repr, Inhabited

/-- What the other agents do at one step (R14, R293). One event is taken per step (log entry 4). -/
inductive Event where
  /-- The transport answers the transaction in flight (R290). -/
  | transport (a : Answer)
  /-- The timer ends the sleep or delivers the settle event (R295). -/
  | timer
  /-- The host aborts (R280, R281). -/
  | abort
  /-- The host writes a 32-bit word at a host offset (R45, R46). -/
  | hostWrite (off : Nat) (w : Word)
  /-- The host reads the 32-bit register at a host offset (R46). -/
  | hostRead (off : Nat)
  /-- Engine reset (R310). -/
  | reset
  /-- No other agent acts. -/
  | quiet
  deriving DecidableEq, Repr, Inhabited

namespace Config

/-- The event of the step numbered by State's `tick` where none is scripted: free, any agent may do anything its
rules allow (R78, R94, R278; log entry 4). -/
opaque freeEvent : Nat → Event

/-! Parameters (R7) -/

/-- DEV_ADDR: OPEN; every request goes to it (R290; log entry 9). -/
opaque devAddr : Nat

/-- POLL_INTERVAL: OPEN; no rule reads it (R325; log entry 9). -/
opaque pollInterval : Nat

/-- NAME_A: OPEN (R151; log entry 9). -/
opaque nameA : String

/-- NAME_B: OPEN (R151; log entry 9). -/
opaque nameB : String

/-- SETTLE_TIME in milliseconds; no rule reads it (R326). -/
def settleTimeMs : Nat := 800

/-- PROBE_ADDR, decided 0x01, hardware-version (R7; 92 D5; 90_conflicts C1). INIT's rule takes the address as an
argument, and `execAt`, `stepAt` are the machine at any other. -/
def probeAddr : VAddr := 0x01

/-- The word a wavelength lookup would give with VARIANT = NONE, for which R151 has no row: free. No reachable
state comes to it (R51; log entry 15). -/
opaque noVariantWavelength : Nat → Word

/-! Named constants (R8) -/

/-- P_STATUS -/
def pStatus : Byte := 0x00
/-- P_WRITE -/
def pWrite : Byte := 0x01
/-- P_READ -/
def pRead : Byte := 0x02
/-- RX_VALID_BIT -/
def rxValidBit : Nat := 0
/-- TX_VALID_BIT -/
def txValidBit : Nat := 1
/-- WRITE_FLAG, bit 7 of the request byte -/
def writeFlag : Byte := 0x80
/-- V_DEVICE_TYPE; no fixed command accesses it (R76) -/
def vDeviceType : VAddr := 0x00
/-- V_HW_VERSION -/
def vHwVersion : VAddr := 0x01
/-- V_CONTROL_SETUP -/
def vControlSetup : VAddr := 0x04
/-- V_INT_TIME -/
def vIntTime : VAddr := 0x05
/-- V_DEVICE_TEMP -/
def vDeviceTemp : VAddr := 0x06
/-- V_LED_CONTROL -/
def vLedControl : VAddr := 0x07
/-- V_CAL_BASE -/
def vCalBase : VAddr := 0x14
/-- CAL_STRIDE -/
def calStride : VAddr := 4
/-- CAL_COUNT -/
def calCount : Nat := 6
/-- TAG_A -/
def tagA : Byte := 0x3E
/-- TAG_B -/
def tagB : Byte := 0x3F
/-- WL_A -/
def wlA : List Nat := [450, 500, 550, 570, 600, 650]
/-- WL_B -/
def wlB : List Nat := [610, 680, 730, 760, 810, 860]
/-- ONESHOT_MODE -/
def oneshotMode : BitVec 2 := 3
/-- ITIME_UNIT in tenths of a millisecond (2.8 ms per count) -/
def itimeUnitTenthsMs : Nat := 28

/-! Host offsets (R46) -/

def hCmd : Nat := 0x00
def hEngStatus : Nat := 0x04
def hTerr : Nat := 0x08
def hResByte : Nat := 0x0C
def hResWord : Nat := 0x10
def hFault : Nat := 0x28

end Config
end Sys2Proof
end

