-- ==== Sys2Proof/Syntax.lean ====
section
/-! DEFINITION. The commands (30_encoding R112, R120), one constructor per row of spec/opcode_table.json, and the
assembler's statements (R123, R124). Each operand of a command has exactly the width of its field (92 D13), so an
out-of-range operand cannot be written in one; an assembler statement carries plain numbers, which WellFormed checks. -/
namespace Sys2Proof

/-- A command of the engine. -/
inductive Instr where
  | read (a : VAddr)
  | write (a : VAddr) (v : Byte)
  | modify (a : VAddr) (mAnd mOr : Byte)
  | init (mode gain : BitVec 2) (itime : Byte)
  | setMode (mode : BitVec 2)
  | setGain (gain : BitVec 2)
  | setItime (itime : Byte)
  | setBulbCur (level : BitVec 2)
  | setBulb (on : BitVec 1)
  | setIndCur (level : BitVec 2)
  | setInd (on : BitVec 1)
  | softReset
  | getName
  | getWavelengths
  | takeMeas
  | takeMeasIllum
  | readCal
  | readTemp
  deriving DecidableEq, Repr

/-- A statement of the assembler (R123), operands in the order R123 gives, and the pseudo-instructions (R124). -/
inductive Asm where
  | read (a : Nat)
  | write (a v : Nat)
  | modify (a mAnd mOr : Nat)
  | init (mode gain itime : Nat)
  | setMode (mode : Nat)
  | setGain (gain : Nat)
  | setItime (itime : Nat)
  | setBulbCur (level : Nat)
  | setBulb (on : Nat)
  | setIndCur (level : Nat)
  | setInd (on : Nat)
  | softReset
  | getName
  | getWavelengths
  | takeMeas
  | takeMeasIllum
  | readCal
  | readTemp
  | bulbOn
  | bulbOff
  | indOn
  | indOff
  | oneshot
  | clearDa
  deriving DecidableEq, Repr

end Sys2Proof
end

