-- ==== Sys2Proof/WellFormed.lean ====
section
/-! DEFINITION. Well-formedness (30_encoding R123): an operand that does not fit its field has no encoding. -/
namespace Sys2Proof

/-- `n` fits an unsigned field of `width` bits. -/
def fits (width n : Nat) : Bool := decide (n < 2 ^ width)

/-- Every operand of an assembler statement fits its field (R112, R123). -/
def Asm.wellFormed : Asm → Bool
  | .read a => fits 7 a
  | .write a v => fits 7 a && fits 8 v
  | .modify a mAnd mOr => fits 7 a && fits 8 mAnd && fits 8 mOr
  | .init mode gain itime => fits 2 mode && fits 2 gain && fits 8 itime
  | .setMode mode => fits 2 mode
  | .setGain gain => fits 2 gain
  | .setItime itime => fits 8 itime
  | .setBulbCur level => fits 2 level
  | .setBulb on => fits 1 on
  | .setIndCur level => fits 2 level
  | .setInd on => fits 1 on
  | .softReset => true
  | .getName => true
  | .getWavelengths => true
  | .takeMeas => true
  | .takeMeasIllum => true
  | .readCal => true
  | .readTemp => true
  | .bulbOn => true
  | .bulbOff => true
  | .indOn => true
  | .indOff => true
  | .oneshot => true
  | .clearDa => true

/-- The command a well-formed statement stands for; a pseudo-instruction is its expansion (R124). None where an
operand does not fit. -/
def Asm.instr (x : Asm) : Option Instr :=
  if x.wellFormed then
    some (match x with
      | .read a => .read (BitVec.ofNat 7 a)
      | .write a v => .write (BitVec.ofNat 7 a) (BitVec.ofNat 8 v)
      | .modify a mAnd mOr => .modify (BitVec.ofNat 7 a) (BitVec.ofNat 8 mAnd) (BitVec.ofNat 8 mOr)
      | .init mode gain itime => .init (BitVec.ofNat 2 mode) (BitVec.ofNat 2 gain) (BitVec.ofNat 8 itime)
      | .setMode mode => .setMode (BitVec.ofNat 2 mode)
      | .setGain gain => .setGain (BitVec.ofNat 2 gain)
      | .setItime itime => .setItime (BitVec.ofNat 8 itime)
      | .setBulbCur level => .setBulbCur (BitVec.ofNat 2 level)
      | .setBulb on => .setBulb (BitVec.ofNat 1 on)
      | .setIndCur level => .setIndCur (BitVec.ofNat 2 level)
      | .setInd on => .setInd (BitVec.ofNat 1 on)
      | .softReset => .softReset
      | .getName => .getName
      | .getWavelengths => .getWavelengths
      | .takeMeas => .takeMeas
      | .takeMeasIllum => .takeMeasIllum
      | .readCal => .readCal
      | .readTemp => .readTemp
      | .bulbOn => .setBulb 1
      | .bulbOff => .setBulb 0
      | .indOn => .setInd 1
      | .indOff => .setInd 0
      | .oneshot => .setMode Config.oneshotMode
      | .clearDa => .modify Config.vControlSetup 0xFD 0x00)
  else none

/-- The statement that writes a command out. -/
def Instr.asm : Instr → Asm
  | .read a => .read a.toNat
  | .write a v => .write a.toNat v.toNat
  | .modify a mAnd mOr => .modify a.toNat mAnd.toNat mOr.toNat
  | .init mode gain itime => .init mode.toNat gain.toNat itime.toNat
  | .setMode mode => .setMode mode.toNat
  | .setGain gain => .setGain gain.toNat
  | .setItime itime => .setItime itime.toNat
  | .setBulbCur level => .setBulbCur level.toNat
  | .setBulb on => .setBulb on.toNat
  | .setIndCur level => .setIndCur level.toNat
  | .setInd on => .setInd on.toNat
  | .softReset => .softReset
  | .getName => .getName
  | .getWavelengths => .getWavelengths
  | .takeMeas => .takeMeas
  | .takeMeasIllum => .takeMeasIllum
  | .readCal => .readCal
  | .readTemp => .readTemp

/-- A command is well-formed when the statement that writes it out is. Operands have their fields' widths by type,
so every command is (Laws.PerInstr). -/
abbrev Instr.WellFormed (i : Instr) : Prop := i.asm.wellFormed = true

end Sys2Proof
end

