-- ==== Sys2Proof/Decode.lean ====
section
/-! DEFINITION. The command word (30_encoding Part B): the opcode map (R120), the decoder (R121, R122), the encoder
and the assembler (R123, R124). A command is one whole 32-bit word, so there is no byte order to fix (R111). -/
namespace Sys2Proof

/-- The rows of the opcode map (R120). -/
inductive Op where
  | read | write | modify | init | setMode | setGain | setItime | setBulbCur | setBulb
  | setIndCur | setInd | softReset | getName | getWavelengths | takeMeas | takeMeasIllum | readCal | readTemp
  deriving DecidableEq, Repr

/-- The opcode map in the table's order. -/
def Op.all : List Op :=
  [.read, .write, .modify, .init, .setMode, .setGain, .setItime, .setBulbCur, .setBulb,
   .setIndCur, .setInd, .softReset, .getName, .getWavelengths, .takeMeas, .takeMeasIllum, .readCal, .readTemp]

/-- The OP value of a row (R112, R120). -/
def Op.code : Op → BitVec 5
  | .read => 0x01 | .write => 0x02 | .modify => 0x03 | .init => 0x04
  | .setMode => 0x05 | .setGain => 0x06 | .setItime => 0x07 | .setBulbCur => 0x08
  | .setBulb => 0x09 | .setIndCur => 0x0A | .setInd => 0x0B | .softReset => 0x0C
  | .getName => 0x0D | .getWavelengths => 0x0E | .takeMeas => 0x0F | .takeMeasIllum => 0x10
  | .readCal => 0x11 | .readTemp => 0x12

/-- The match word of a row (R120). -/
def Op.matchWord : Op → Word
  | .read => 0x08000000 | .write => 0x10000000 | .modify => 0x18000000 | .init => 0x20000000
  | .setMode => 0x28000000 | .setGain => 0x30000000 | .setItime => 0x38000000 | .setBulbCur => 0x40000000
  | .setBulb => 0x48000000 | .setIndCur => 0x50000000 | .setInd => 0x58000000 | .softReset => 0x60000000
  | .getName => 0x68000000 | .getWavelengths => 0x70000000 | .takeMeas => 0x78000000
  | .takeMeasIllum => 0x80000000 | .readCal => 0x88000000 | .readTemp => 0x90000000

/-- The mask of a row (R120). -/
def Op.mask : Op → Word
  | .read => 0xFF80FFFF | .write => 0xFF80FF00 | .modify => 0xFF800000 | .init => 0xFFFF00F0
  | .setMode => 0xFFFFFFFC | .setGain => 0xFFFFFFFC | .setItime => 0xFFFFFF00 | .setBulbCur => 0xFFFFFFFC
  | .setBulb => 0xFFFFFFFE | .setIndCur => 0xFFFFFFFC | .setInd => 0xFFFFFFFE | .softReset => 0xFFFFFFFF
  | .getName => 0xFFFFFFFF | .getWavelengths => 0xFFFFFFFF | .takeMeas => 0xFFFFFFFF
  | .takeMeasIllum => 0xFFFFFFFF | .readCal => 0xFFFFFFFF | .readTemp => 0xFFFFFFFF

/-- The row an OP value names; none where it is reserved: 0x00 and 0x13 to 0x1F (R122). -/
def Op.ofCode (c : BitVec 5) : Option Op :=
  match c.toNat with
  | 0x01 => some .read | 0x02 => some .write | 0x03 => some .modify | 0x04 => some .init
  | 0x05 => some .setMode | 0x06 => some .setGain | 0x07 => some .setItime | 0x08 => some .setBulbCur
  | 0x09 => some .setBulb | 0x0A => some .setIndCur | 0x0B => some .setInd | 0x0C => some .softReset
  | 0x0D => some .getName | 0x0E => some .getWavelengths | 0x0F => some .takeMeas | 0x10 => some .takeMeasIllum
  | 0x11 => some .readCal | 0x12 => some .readTemp
  | _ => none

/-! The fields of a command word (R110) -/

/-- OP = w[31:27] -/
def fieldOp (w : Word) : BitVec 5 := w.extractLsb' 27 5
/-- RSV = w[26:23] -/
def fieldRsv (w : Word) : BitVec 4 := w.extractLsb' 23 4
/-- ADDR = w[22:16] -/
def fieldAddr (w : Word) : VAddr := w.extractLsb' 16 7
/-- B = w[15:8] -/
def fieldB (w : Word) : Byte := w.extractLsb' 8 8
/-- C = w[7:0] -/
def fieldC (w : Word) : Byte := w.extractLsb' 0 8

/-- C[1:0], the mode, gain or level operand (R112) -/
def fieldC10 (w : Word) : BitVec 2 := w.extractLsb' 0 2
/-- C[3:2], INIT's gain (R112) -/
def fieldC32 (w : Word) : BitVec 2 := w.extractLsb' 2 2
/-- C[0], the on operand (R112) -/
def fieldC0 (w : Word) : BitVec 1 := w.extractLsb' 0 1

/-- The command of a row with the operands of R112, each field taken as it stands (R113). -/
def Op.instr (w : Word) : Op → Instr
  | .read => .read (fieldAddr w)
  | .write => .write (fieldAddr w) (fieldC w)
  | .modify => .modify (fieldAddr w) (fieldB w) (fieldC w)
  | .init => .init (fieldC10 w) (fieldC32 w) (fieldB w)
  | .setMode => .setMode (fieldC10 w)
  | .setGain => .setGain (fieldC10 w)
  | .setItime => .setItime (fieldC w)
  | .setBulbCur => .setBulbCur (fieldC10 w)
  | .setBulb => .setBulb (fieldC0 w)
  | .setIndCur => .setIndCur (fieldC10 w)
  | .setInd => .setInd (fieldC0 w)
  | .softReset => .softReset
  | .getName => .getName
  | .getWavelengths => .getWavelengths
  | .takeMeas => .takeMeas
  | .takeMeasIllum => .takeMeasIllum
  | .readCal => .readCal
  | .readTemp => .readTemp

/-- Why a word is no command (R121). -/
inductive DecodeError where
  | illegalCommand
  | badOperand
  deriving DecidableEq, Repr

/-- The decoder (R121): OP first, then the must-be-zero bits, then the operands. Total: every word is exactly one
of illegal, bad operand, or one command. -/
def decode (w : Word) : Except DecodeError Instr :=
  match Op.ofCode (fieldOp w) with
  | none => .error .illegalCommand
  | some op => if w &&& op.mask = op.matchWord then .ok (op.instr w) else .error .badOperand

/-- The decoder on an opcode-table word: its `nbits` low bits, the rest of the 32 being 0; none where the word is
refused or has a bit above the 32 a command has. -/
def decodeTableWord (nbits w : Nat) : Option Instr :=
  if w % 2 ^ nbits < 2 ^ 32 then
    match decode (BitVec.ofNat 32 (w % 2 ^ nbits)) with
    | .ok i => some i
    | .error _ => none
  else none

/-- The row of a command. -/
def Instr.op : Instr → Op
  | .read _ => .read
  | .write _ _ => .write
  | .modify _ _ _ => .modify
  | .init _ _ _ => .init
  | .setMode _ => .setMode
  | .setGain _ => .setGain
  | .setItime _ => .setItime
  | .setBulbCur _ => .setBulbCur
  | .setBulb _ => .setBulb
  | .setIndCur _ => .setIndCur
  | .setInd _ => .setInd
  | .softReset => .softReset
  | .getName => .getName
  | .getWavelengths => .getWavelengths
  | .takeMeas => .takeMeas
  | .takeMeasIllum => .takeMeasIllum
  | .readCal => .readCal
  | .readTemp => .readTemp

/-- A command word from its fields, RSV = 0 (R110). -/
def wordOf (op : BitVec 5) (addr : VAddr) (b c : Byte) : Word := op ++ 0#4 ++ addr ++ b ++ c

/-- The encoder, from the operand table of R112. -/
def encode (i : Instr) : Word :=
  match i with
  | .read a => wordOf i.op.code a 0 0
  | .write a v => wordOf i.op.code a 0 v
  | .modify a mAnd mOr => wordOf i.op.code a mAnd mOr
  | .init mode gain itime => wordOf i.op.code 0 itime (0#4 ++ gain ++ mode)
  | .setMode mode => wordOf i.op.code 0 0 (0#6 ++ mode)
  | .setGain gain => wordOf i.op.code 0 0 (0#6 ++ gain)
  | .setItime itime => wordOf i.op.code 0 0 itime
  | .setBulbCur level => wordOf i.op.code 0 0 (0#6 ++ level)
  | .setBulb on => wordOf i.op.code 0 0 (0#7 ++ on)
  | .setIndCur level => wordOf i.op.code 0 0 (0#6 ++ level)
  | .setInd on => wordOf i.op.code 0 0 (0#7 ++ on)
  | .softReset => wordOf i.op.code 0 0 0
  | .getName => wordOf i.op.code 0 0 0
  | .getWavelengths => wordOf i.op.code 0 0 0
  | .takeMeas => wordOf i.op.code 0 0 0
  | .takeMeasIllum => wordOf i.op.code 0 0 0
  | .readCal => wordOf i.op.code 0 0 0
  | .readTemp => wordOf i.op.code 0 0 0

/-- The assembler (R123, R124): the word of a statement, none where an operand does not fit. -/
def assemble (x : Asm) : Option Word := x.instr.map encode

end Sys2Proof
end

