-- ==== Sys2Proof/Machine/State.lean ====
section
/-! DEFINITION. The engine's state (10_state): the host-visible registers, the sequencer position and the internal
datapath registers, and the model's own record of the other agents. Plain data. -/
namespace Sys2Proof.Machine

/-- Completion status (60_exceptions R270). Codes 8 to 15 are never produced (R32), so they have no constructor. -/
inductive Status where
  | ok
  | unsupportedDevice
  | transportError
  | aborted
  | illegalCommand
  | badOperand
  | notInitialized
  | alreadyInitialized
  deriving DecidableEq, Repr

/-- The two sensor variants (R3, R151); NONE is the absence of one, and code 3 is never written (R31). -/
inductive Variant where
  | a
  | b
  deriving DecidableEq, Repr

/-- What can end a command early (R277): a transport error with its code, or an abort. -/
inductive Failure where
  | transport (e : TErr)
  | aborted
  deriving DecidableEq, Repr

/-- Which of VRead, VWrite and VModify a channel operation is part of (R172, R176, R180). -/
inductive OpKind where
  | vread
  | vwrite
  | vmodify
  deriving DecidableEq, Repr

/-- The channel phases (41_channel R171). -/
inductive Phase where
  | rChk | rDrain | rTxw | rTxs | rReq | rRxw | rRxs | rResp
  | wTx1 | wTx1s | wAddr | wTx2 | wTx2s | wData
  deriving DecidableEq, Repr

/-- The sequencer position (R40): IDLE, XFER and SLEEP inside channel op `k` of the running command's rule (the
phase says which), the SLEEP of the data-available poll before channel op `k`, SETTLE, and the finish step of a
command that makes no transaction (log entry 3). -/
inductive Seq where
  | idle
  | chan (k : Nat) (op : OpKind) (ph : Phase)
  | daSleep (k : Nat)
  | settle
  | lookup
  deriving DecidableEq, Repr

/-- The events of a bus trace (R170): `S→s`, `R→b`, `W(b)`, `Z`, `Z` at which the host aborts (95, `Z!`), `T!e`; and the
end of a WaitSettle, a step that R11 puts in the trace and R170 has no notation for (log entry 12). -/
inductive BusEvent where
  | status (s : Byte)
  | read (b : Byte)
  | write (b : Byte)
  | sleep
  | sleepAborted
  | error (e : TErr)
  | settle
  deriving DecidableEq, Repr

/-- How the machine can stop. -/
inductive Fault where
  /-- Raised by `hostRead` when the host reads RES_BYTE or RES_WORD at offset `off` while it holds no result (R297,
  R298). Safe: the spec calls it a fault. -/
  | noResult (off : Nat)
  deriving DecidableEq, Repr

/-- Why an instruction has no meaning here. -/
inductive Refusal where
  /-- Raised by an arm of exec whose instruction is not modelled yet; no arm raises it. Safe. -/
  | notModelled (mnemonic : String)
  deriving DecidableEq, Repr

/-- The state of the machine. -/
structure State where
  /-- ENG_STATUS[3:0] (R32) -/
  lastStatus : Status
  /-- ENG_STATUS[4] (R33) -/
  busy : Bool
  /-- ENG_STATUS[5] (R34) -/
  done : Bool
  /-- ENG_STATUS[6] (R35) -/
  initialized : Bool
  /-- ENG_STATUS[8:7] (R37) -/
  variant : Option Variant
  /-- ENG_STATUS[9] (R38) -/
  measAwaiting : Bool
  /-- ENG_STATUS[10] (R39) -/
  resultValid : Bool
  /-- ENG_STATUS[11] (R41) -/
  cleanupFailed : Bool
  /-- ENG_STATUS[12] (R42) -/
  settling : Bool
  /-- ENG_STATUS[13] (R39) -/
  resultWords : Bool
  /-- TERR (R43) -/
  terr : Word
  /-- RES_BYTE (R39) -/
  resByte : Byte
  /-- RES_WORD[0..5] (R39) -/
  resWord : Vector Word 6
  /-- FAULT bit 0, HOST_OVERRUN (R44) -/
  hostOverrun : Bool
  /-- SEQ (R40) -/
  seq : Seq
  /-- CMDL, the accepted command word (R36) -/
  cmdl : Word
  /-- VA, virtual address of the current channel op (R36) -/
  va : VAddr
  /-- VD, data byte of the current VWrite, result of the last VRead (R36) -/
  vd : Byte
  /-- MAND, and-mask of the current VModify (R36) -/
  mand : Byte
  /-- MOR, or-mask of the current VModify (R36) -/
  mor : Byte
  /-- XBUF, the byte of the last transport transaction (R36) -/
  xbuf : Byte
  /-- SREG, the last STATUS byte read (R36) -/
  sreg : Byte
  /-- ACC, the float group being assembled by READ_CAL (R36) -/
  acc : Word
  /-- GK, group index of READ_CAL (R36) -/
  gk : BitVec 3
  /-- BJ, byte index within a group (R36) -/
  bj : BitVec 2
  /-- ERR1, first failure of TAKE_MEAS_ILLUM, none where there was none (R36) -/
  err1 : Option Failure
  /-- STAGE[0..5] (R36) -/
  stage : Vector Word 6
  /-- The model's own: what the other agents will do, oldest first (log entry 4). -/
  inbox : List Event
  /-- The model's own: the number the free event is taken at (log entry 4). -/
  tick : Nat
  /-- The model's own: the bus trace so far, NEWEST FIRST (R170; log entry 12). -/
  trace : List BusEvent
  /-- The model's own: the word the last host read returned (log entry 13). -/
  hostRd : Word
  deriving DecidableEq, Repr

/-- The state after engine reset (R50, R310). -/
def State.reset : State where
  lastStatus := .ok
  busy := false
  done := false
  initialized := false
  variant := none
  measAwaiting := false
  resultValid := false
  cleanupFailed := false
  settling := false
  resultWords := false
  terr := 0
  resByte := 0
  resWord := #v[0, 0, 0, 0, 0, 0]
  hostOverrun := false
  seq := .idle
  cmdl := 0
  va := 0
  vd := 0
  mand := 0
  mor := 0
  xbuf := 0
  sreg := 0
  acc := 0
  gk := 0
  bj := 0
  err1 := none
  stage := #v[0, 0, 0, 0, 0, 0]
  inbox := []
  tick := 0
  trace := []
  hostRd := 0

end Sys2Proof.Machine
end

