-- ==== Sys2Proof/Machine/Operands.lean ====
section
/-! DEFINITION. The typed-conversion decoder (40_conversion) and the field masks (30_encoding R107): pure functions
of their inputs (R140). -/
namespace Sys2Proof.Machine

/-! ## Field extractors (R141; layouts R104, R105) -/

/-- DA(cs) = cs[1], data-available -/
def fieldDa (cs : Byte) : Bool := cs.getLsbD 1
/-- MODE(cs) = cs[3:2] -/
def fieldMode (cs : Byte) : BitVec 2 := cs.extractLsb' 2 2
/-- GAIN(cs) = cs[5:4] -/
def fieldGain (cs : Byte) : BitVec 2 := cs.extractLsb' 4 2
/-- RST(cs) = cs[7] -/
def fieldRst (cs : Byte) : Bool := cs.getLsbD 7
/-- IND_ON(lc) = lc[0] -/
def fieldIndOn (lc : Byte) : BitVec 1 := lc.extractLsb' 0 1
/-- IND_CUR(lc) = lc[2:1] -/
def fieldIndCur (lc : Byte) : BitVec 2 := lc.extractLsb' 1 2
/-- BULB_ON(lc) = lc[3] -/
def fieldBulbOn (lc : Byte) : BitVec 1 := lc.extractLsb' 3 1
/-- BULB_CUR(lc) = lc[5:4] -/
def fieldBulbCur (lc : Byte) : BitVec 2 := lc.extractLsb' 4 2

/-! ## Combine and the field masks (R142, R107) -/

/-- COMBINE(x, m_and, m_or), on eight bits (R142). -/
def combine (x mAnd mOr : Byte) : Byte := (x &&& mAnd) ||| mOr

/-- and-mask of MODE (R107) -/
def mAndMode : Byte := 0xF3
/-- or-mask of MODE: m << 2 (R107) -/
def mOrMode (m : BitVec 2) : Byte := m.setWidth 8 <<< 2
/-- and-mask of GAIN (R107) -/
def mAndGain : Byte := 0xCF
/-- or-mask of GAIN: g << 4 (R107) -/
def mOrGain (g : BitVec 2) : Byte := g.setWidth 8 <<< 4
/-- and-mask that clears DATA_AVAILABLE (R107) -/
def mAndDa : Byte := 0xFD
/-- and-mask of SOFT_RESET: nothing cleared (R107) -/
def mAndRst : Byte := 0xFF
/-- or-mask that sets SOFT_RESET (R107) -/
def mOrRst : Byte := 0x80
/-- and-mask of BULB_CUR (R107) -/
def mAndBulbCur : Byte := 0xCF
/-- or-mask of BULB_CUR: c << 4 (R107) -/
def mOrBulbCur (c : BitVec 2) : Byte := c.setWidth 8 <<< 4
/-- and-mask of BULB_ON (R107) -/
def mAndBulb : Byte := 0xF7
/-- or-mask of BULB_ON: o << 3 (R107) -/
def mOrBulb (o : BitVec 1) : Byte := o.setWidth 8 <<< 3
/-- and-mask of IND_CUR (R107) -/
def mAndIndCur : Byte := 0xF9
/-- or-mask of IND_CUR: c << 1 (R107) -/
def mOrIndCur (c : BitVec 2) : Byte := c.setWidth 8 <<< 1
/-- and-mask of IND_ON (R107) -/
def mAndInd : Byte := 0xFE
/-- or-mask of IND_ON: o (R107) -/
def mOrInd (o : BitVec 1) : Byte := o.setWidth 8

/-! ## Field inserters (R143) -/

def insMode (cs : Byte) (m : BitVec 2) : Byte := combine cs mAndMode (mOrMode m)
def insGain (cs : Byte) (g : BitVec 2) : Byte := combine cs mAndGain (mOrGain g)
def insDaClear (cs : Byte) : Byte := combine cs mAndDa 0x00
def insRst (cs : Byte) : Byte := combine cs mAndRst mOrRst
def insBulbCur (lc : Byte) (c : BitVec 2) : Byte := combine lc mAndBulbCur (mOrBulbCur c)
def insBulbOn (lc : Byte) (o : BitVec 1) : Byte := combine lc mAndBulb (mOrBulb o)
def insIndCur (lc : Byte) (c : BitVec 2) : Byte := combine lc mAndIndCur (mOrIndCur c)
def insIndOn (lc : Byte) (o : BitVec 1) : Byte := combine lc mAndInd (mOrInd o)

/-! ## Request byte (R100) -/

/-- The request byte of a virtual address: bit 7 the write flag, bits 6:0 the address (R100). -/
def requestByte (write : Bool) (a : VAddr) : Byte :=
  if write then a.setWidth 8 ||| Config.writeFlag else a.setWidth 8

/-! ## Variants (R150 to R152) -/

/-- VARIANT_OF(t): none is UNSUPPORTED; the whole byte is compared (R150). -/
def variantOf (t : Byte) : Option Variant :=
  if t = Config.tagA then some .a else if t = Config.tagB then some .b else none

/-- The code of the VARIANT field: 0 NONE, 1 VariantA, 2 VariantB (R31, R151). -/
def variantCode : Option Variant → BitVec 2
  | none => 0
  | some .a => 1
  | some .b => 2

/-- The name of a variant (R151). -/
def variantName : Variant → String
  | .a => Config.nameA
  | .b => Config.nameB

/-- WL(v, k), the k-th wavelength of a variant (R152). -/
def wavelength (v : Variant) (k : Nat) : Nat :=
  match v with
  | .a => Config.wlA.getD k 0
  | .b => Config.wlB.getD k 0

/-- The six result words of GET_WAVELENGTHS (R221). -/
def wavelengthWords : Option Variant → Vector Word 6
  | some v => Vector.ofFn fun k => BitVec.ofNat 32 (wavelength v k.val)
  | none => Vector.ofFn fun k => Config.noVariantWavelength k.val

/-! ## Floats, temperature, integration time (R154, R160 to R163) -/

/-- F32(b0, b1, b2, b3), the byte of the lowest address the most significant (R160, R80). -/
def f32 (b0 b1 b2 b3 : Byte) : Word := b0 ++ b1 ++ b2 ++ b3

/-- One more byte of the group READ_CAL is assembling: ACC moves up a byte and takes it in at the bottom, so that
four of them leave F32 of the four (log entry 11). -/
def accumulate (acc : Word) (b : Byte) : Word := acc.extractLsb' 0 24 ++ b

/-- The numeric meaning of a binary32 pattern (R161). -/
inductive F32Value where
  | infinity (neg : Bool)
  | nan (quiet : Bool)
  | zero (neg : Bool)
  /-- (-1)^neg × m × 2^e -/
  | number (neg : Bool) (m : Nat) (e : Int)
  deriving DecidableEq, Repr

/-- The binary32 value of a pattern. PRESUMED: the layout is general knowledge the spec supplies (R161; log entry 17). -/
def f32Value (f : Word) : F32Value :=
  let neg := f.getLsbD 31
  let e := (f.extractLsb' 23 8).toNat
  let m := (f.extractLsb' 0 23).toNat
  if e = 0xFF then
    if m = 0 then .infinity neg else .nan (f.getLsbD 22)
  else if e = 0 then
    if m = 0 then .zero neg else .number neg m (-149)
  else .number neg (2 ^ 23 + m) ((e : Int) - 150)

/-- TEMP(b), the byte uninterpreted (R163). -/
def temp (b : Byte) : Word := b.setWidth 32

/-- ITIME_MS(t) in tenths of a millisecond (R154). -/
def itimeTenthsMs (t : Byte) : Nat := t.toNat * Config.itimeUnitTenthsMs

end Sys2Proof.Machine
end

