-- ==== Sys2Proof/Machine/Flags.lean ====
section
/-! DEFINITION. The flags: the two STATUS predicates (30_encoding R103), the completion codes (60_exceptions R270)
and the ENG_STATUS and FAULT words (10_state R31, R44). -/
namespace Sys2Proof.Machine

/-- RXV(s) = s[0] (R103) -/
def rxv (s : Byte) : Bool := s.getLsbD Config.rxValidBit

/-- TXV(s) = s[1] (R103) -/
def txv (s : Byte) : Bool := s.getLsbD Config.txValidBit

/-- The code of a completion status (R270). -/
def statusCode : Status → BitVec 4
  | .ok => 0
  | .unsupportedDevice => 1
  | .transportError => 2
  | .aborted => 3
  | .illegalCommand => 4
  | .badOperand => 5
  | .notInitialized => 6
  | .alreadyInitialized => 7

/-- ENG_STATUS as the host reads it (R31). -/
def engStatus (s : State) : Word :=
  0#18 ++ BitVec.ofBool s.resultWords ++ BitVec.ofBool s.settling ++ BitVec.ofBool s.cleanupFailed
    ++ BitVec.ofBool s.resultValid ++ BitVec.ofBool s.measAwaiting ++ variantCode s.variant
    ++ BitVec.ofBool s.initialized ++ BitVec.ofBool s.done ++ BitVec.ofBool s.busy ++ statusCode s.lastStatus

/-- FAULT as the host reads it (R44). -/
def faultWord (s : State) : Word := 0#31 ++ BitVec.ofBool s.hostOverrun

end Sys2Proof.Machine
end

