-- ==== Sys2Proof/Machine/Ops.lean ====
section
/-! DEFINITION. The operations every command shares: taking an event, the channel phases (41_channel), issue,
refusal and finish (60_exceptions), and one step of a command's rule. One call of a command's meaning is one engine
step (00_scope R12; log entry 1). -/
namespace Sys2Proof.Machine

/-! ## Events -/

/-- The event of this step: the oldest scripted one, else the free one (log entry 4). -/
def State.peek (s : State) : Event :=
  match s.inbox with
  | [] => Config.freeEvent s.tick
  | e :: _ => e

/-- The state once this step's event is taken. -/
def State.pop (s : State) : State := { s with inbox := s.inbox.tail, tick := s.tick + 1 }

/-- One event added to the bus trace (R170). -/
def State.log (s : State) (e : BusEvent) : State := { s with trace := e :: s.trace }

/-- The bus trace in the order the engine performed it (R170). -/
def State.busTrace (s : State) : List BusEvent := s.trace.reverse

/-! ## Transactions (R71 to R74, R171) -/

/-- A transport request: a physical register, and the byte of a write (R11). -/
inductive Xfer where
  | busRead (p : Byte)
  | busWrite (p v : Byte)
  deriving DecidableEq, Repr

/-- Where a request goes: every one to DEV_ADDR (R290). -/
def Xfer.dest (_ : Xfer) : Nat := Config.devAddr

/-- The transaction a phase has in flight; none in the four sleeps (R171). -/
def Phase.request (s : State) : Phase → Option Xfer
  | .rChk => some (.busRead Config.pStatus)
  | .rDrain => some (.busRead Config.pRead)
  | .rTxw => some (.busRead Config.pStatus)
  | .rTxs => none
  | .rReq => some (.busWrite Config.pWrite (requestByte false s.va))
  | .rRxw => some (.busRead Config.pStatus)
  | .rRxs => none
  | .rResp => some (.busRead Config.pRead)
  | .wTx1 => some (.busRead Config.pStatus)
  | .wTx1s => none
  | .wAddr => some (.busWrite Config.pWrite (requestByte true s.va))
  | .wTx2 => some (.busRead Config.pStatus)
  | .wTx2s => none
  | .wData => some (.busWrite Config.pWrite s.vd)

/-- XFER(t): the transaction issued and not yet answered (R40). -/
def State.request (s : State) : Option Xfer :=
  match s.seq with
  | .chan _ _ ph => ph.request s
  | .idle => none
  | .daSleep _ => none
  | .settle => none
  | .lookup => none

/-- The phases that are a Sleep() (R171). -/
def Phase.isSleep : Phase → Bool
  | .rTxs => true
  | .rRxs => true
  | .wTx1s => true
  | .wTx2s => true
  | .rChk => false
  | .rDrain => false
  | .rTxw => false
  | .rReq => false
  | .rRxw => false
  | .rResp => false
  | .wTx1 => false
  | .wAddr => false
  | .wTx2 => false
  | .wData => false

/-- The phase after a step that returned normally, `b` being the byte a read returned; none where the channel op is
done (the table of R171). -/
def Phase.next (b : Byte) : Phase → Option Phase
  | .rChk => some (if rxv b then .rDrain else .rTxw)
  | .rDrain => some .rTxw
  | .rTxw => some (if txv b then .rTxs else .rReq)
  | .rTxs => some .rTxw
  | .rReq => some .rRxw
  | .rRxw => some (if rxv b then .rResp else .rRxs)
  | .rRxs => some .rRxw
  | .rResp => none
  | .wTx1 => some (if txv b then .wTx1s else .wAddr)
  | .wTx1s => some .wTx1
  | .wAddr => some .wTx2
  | .wTx2 => some (if txv b then .wTx2s else .wData)
  | .wTx2s => some .wTx2
  | .wData => none

/-- A STATUS read that returned `b`: SREG and XBUF take it (R171). -/
def State.gotStatus (s : State) (b : Byte) : State :=
  { s with sreg := b, xbuf := b, trace := .status b :: s.trace }

/-- A stale byte read and discarded: XBUF alone takes it (R171, R_DRAIN). -/
def State.gotStale (s : State) (b : Byte) : State :=
  { s with xbuf := b, trace := .read b :: s.trace }

/-- A response byte read: VD and XBUF take it (R171, R_RESP). -/
def State.gotResponse (s : State) (b : Byte) : State :=
  { s with vd := b, xbuf := b, trace := .read b :: s.trace }

/-- A byte written to P_WRITE (R73): XBUF holds it. -/
def State.wrote (s : State) (v : Byte) : State :=
  { s with xbuf := v, trace := .write v :: s.trace }

/-- What a transaction that returned normally writes, `b` being the byte a read returned (R171). -/
def State.transact (s : State) (b : Byte) : Phase → State
  | .rChk => s.gotStatus b
  | .rDrain => s.gotStale b
  | .rTxw => s.gotStatus b
  | .rTxs => s
  | .rReq => s.wrote (requestByte false s.va)
  | .rRxw => s.gotStatus b
  | .rRxs => s
  | .rResp => s.gotResponse b
  | .wTx1 => s.gotStatus b
  | .wTx1s => s
  | .wAddr => s.wrote (requestByte true s.va)
  | .wTx2 => s.gotStatus b
  | .wTx2s => s
  | .wData => s.wrote s.vd

/-- The sequencer moved to a position. -/
def State.goto (s : State) (q : Seq) : State := { s with seq := q }

/-! ## Channel ops -/

/-- VRead(a) begins as channel op `k` (R172). -/
def startRead (k : Nat) (a : VAddr) (s : State) : State :=
  { s with va := a, seq := .chan k .vread .rChk }

/-- VWrite(a, v) begins as channel op `k` (R176). -/
def startWrite (k : Nat) (a : VAddr) (v : Byte) (s : State) : State :=
  { s with va := a, vd := v, seq := .chan k .vwrite .wTx1 }

/-- VModify(a, m_and, m_or) begins as channel op `k`, with its VRead (R180). -/
def startModify (k : Nat) (a : VAddr) (mAnd mOr : Byte) (s : State) : State :=
  { s with mand := mAnd, mor := mOr, va := a, seq := .chan k .vmodify .rChk }

/-- VModify's VWrite begins: VD takes COMBINE of the byte read and the masks, VA holds the address (R180). -/
def modifyWrite (k : Nat) (s : State) : State :=
  { s with vd := combine s.vd s.mand s.mor, seq := .chan k .vmodify .wTx1 }

/-! ## Finish and refusal -/

/-- finish(st) without a result (R276): RESULT_VALID and RESULT_WORDS stay as issue left them. -/
def finish (st : Status) (s : State) : State :=
  { s with lastStatus := st, measAwaiting := false, settling := false, busy := false, done := true, seq := .idle }

/-- finish(OK) of a command without a result (R276). -/
def finishOk (s : State) : State := finish .ok s

/-- RES_BYTE takes a result, and finish(OK) with RESULT_VALID = 1, RESULT_WORDS = 0 (R39, R276). -/
def finishByte (b : Byte) (s : State) : State :=
  finish .ok { s with resByte := b, resultValid := true, resultWords := false }

/-- RES_WORD[0..5] take a result, and finish(OK) with RESULT_VALID = 1, RESULT_WORDS = 1 (R39, R276). -/
def finishWords (ws : Vector Word 6) (s : State) : State :=
  finish .ok { s with resWord := ws, resultValid := true, resultWords := true }

/-- raise TRANSPORT_ERROR or ABORTED (R271, R276): TERR takes the transport's code, zero-extended. -/
def finishFail (f : Failure) (s : State) : State :=
  match f with
  | .transport e => finish .transportError { s with terr := e.setWidth 32 }
  | .aborted => finish .aborted s

/-- What issuing any word clears (R272). -/
def clearForIssue (s : State) : State :=
  { s with done := false, resultValid := false, resultWords := false, cleanupFailed := false }

/-- A word refused (R275). -/
def refuse (st : Status) (s : State) : State := { s with lastStatus := st, done := true }

/-- A word accepted (R274): latched in CMDL, BUSY set. -/
def accept (i : Instr) (s : State) : State := { s with cmdl := encode i, busy := true }

/-- The gating of every command but INIT (R273). -/
def gateControl (s : State) : Option Status := if s.initialized then none else some .notInitialized

/-- The gating of INIT (R273). -/
def gateInit (s : State) : Option Status := if s.initialized then some .alreadyInitialized else none

/-! ## One step of a command -/

/-- A command's rule, cut at its step primitives (R11, R12): what it does before its first primitive, which is written in the
acceptance step (DESIGN CHOICE, unsafe: log entry 21), after each channel op, on a failure of channel op `k` or of the sleep before it, after a data-available sleep, after the settle
event, and as a command without a transaction. -/
structure Rule where
  start : State → State
  after : Nat → State → State
  fail : Nat → Failure → State → State := fun _ f s => finishFail f s
  wake : Nat → State → State := fun _ s => s
  settled : State → State := fun s => s
  look : State → State := fun s => s

/-- A rule that is one channel op and then finish(OK). -/
def Rule.single (start : State → State) : Rule where
  start := start
  after := fun _ s => finishOk s

/-- A Sleep() (R184, R280): the timer ends it or the host aborts it; until then nothing happens. -/
def sleepStep (wake : State → State) (abort : State → State) (s : State) : State :=
  match s.peek with
  | .timer => wake (s.pop.log .sleep)
  | .abort => abort (s.pop.log .sleepAborted)
  | .transport _ => s.pop
  | .hostWrite _ _ => s.pop
  | .hostRead _ => s.pop
  | .reset => s.pop
  | .quiet => s.pop

/-- What follows a step of phase `ph` that returned normally with byte `b`: the next phase (R171), or VModify's
write after its read (R180), or the rest of the command's rule. -/
def afterPhase (r : Rule) (k : Nat) (op : OpKind) (ph : Phase) (b : Byte) (s : State) : State :=
  match ph.next b with
  | some ph' => s.goto (.chan k op ph')
  | none => if op = .vmodify ∧ ph = .rResp then modifyWrite k s else r.after k s

/-- A transaction in flight (R171, R186): its answer is taken; until it comes nothing happens (R284; log entry 5). -/
def xferStep (r : Rule) (k : Nat) (op : OpKind) (ph : Phase) (s : State) : State :=
  match s.peek with
  | .transport (.ok b) => afterPhase r k op ph b (s.pop.transact b ph)
  | .transport (.error e) => r.fail k (.transport e) (s.pop.log (.error e))
  | .timer => s.pop
  | .abort => s.pop
  | .hostWrite _ _ => s.pop
  | .hostRead _ => s.pop
  | .reset => s.pop
  | .quiet => s.pop

/-- WaitSettle() (R326): only the timer's settle event ends it, and no abort does (R281). Its end is in the trace (R11). -/
def settleStep (settled : State → State) (s : State) : State :=
  match s.peek with
  | .timer => settled (s.pop.log .settle)
  | .transport _ => s.pop
  | .abort => s.pop
  | .hostWrite _ _ => s.pop
  | .hostRead _ => s.pop
  | .reset => s.pop
  | .quiet => s.pop

/-- One step of the running command (R40). -/
def advance (r : Rule) (s : State) : State :=
  match s.seq with
  | .idle => s.pop
  | .chan k op ph =>
    if ph.isSleep then sleepStep (afterPhase r k op ph 0) (r.fail k .aborted) s else xferStep r k op ph s
  | .daSleep k => sleepStep (r.wake k) (r.fail k .aborted) s
  | .settle => settleStep r.settled s
  | .lookup => r.look s.pop

/-- The issue step of a command that decoded (R272): clear, gate, then refuse or accept. Acceptance also writes what the
rule assigns before its first primitive (VA, VD, MAND, MOR, ERR1, GK, BJ), which R274 neither names nor excludes: DESIGN
CHOICE, unsafe, log entry 21. -/
def issue (gate : State → Option Status) (i : Instr) (r : Rule) (s : State) : State :=
  match gate s with
  | some st => refuse st (clearForIssue s.pop)
  | none => r.start (accept i (clearForIssue s.pop))

/-- One step of command `i`: its issue while BUSY = 0, else the next step of its rule. -/
def command (gate : State → Option Status) (i : Instr) (r : Rule) (s : State) :
    Host.Outcome State Fault Refusal :=
  .next (if s.busy then advance r s else issue gate i r s)

end Sys2Proof.Machine
end

