-- ==== Sys2Proof/Machine/Channel.lean ====
section
/-! DEFINITION. The channel commands READ, WRITE and MODIFY (41_channel). -/
namespace Sys2Proof.Machine

/-- READ (R173): VRead(a), RES_BYTE takes the byte. -/
def execRead (a : VAddr) (s : State) : Host.Outcome State Fault Refusal :=
  command gateControl (.read a)
    { start := startRead 0 a
      after := fun _ s => finishByte s.vd s } s

/-- WRITE (R177): VWrite(a, v). -/
def execWrite (a : VAddr) (v : Byte) (s : State) : Host.Outcome State Fault Refusal :=
  command gateControl (.write a v) (.single (startWrite 0 a v)) s

/-- MODIFY (R181): VModify(a, m_and, m_or). -/
def execModify (a : VAddr) (mAnd mOr : Byte) (s : State) : Host.Outcome State Fault Refusal :=
  command gateControl (.modify a mAnd mOr) (.single (startModify 0 a mAnd mOr)) s

end Sys2Proof.Machine
end

