-- ==== Sys2Proof/Machine/Controller.lean ====
section
/-! DEFINITION. The device controller's commands (42_controller). -/
namespace Sys2Proof.Machine

/-- INIT after its channel op `k` (R201): 0 the probe, 1 to 4 the LED modifies, 5 the integration time, 6 the gain,
7 the mode. -/
def initAfter (mode gain : BitVec 2) (itime : Byte) (k : Nat) (s : State) : State :=
  match k with
  | 0 =>
    match variantOf s.vd with
    | none => finish .unsupportedDevice s
    | some v => startModify 1 Config.vLedControl mAndBulbCur (mOrBulbCur 0) { s with variant := some v }
  | 1 => startModify 2 Config.vLedControl mAndBulb (mOrBulb 0) s
  | 2 => startModify 3 Config.vLedControl mAndIndCur (mOrIndCur 0) s
  | 3 => startModify 4 Config.vLedControl mAndInd (mOrInd 0) s
  | 4 => startWrite 5 Config.vIntTime itime s
  | 5 => startModify 6 Config.vControlSetup mAndGain (mOrGain gain) s
  | 6 => startModify 7 Config.vControlSetup mAndMode (mOrMode mode) s
  | _ => finishOk { s with initialized := true }

/-- INIT's rule with its probe at an address (R201; PROBE_ADDR is a parameter, 92 D5). -/
def initRule (probe : VAddr) (mode gain : BitVec 2) (itime : Byte) : Rule where
  start := startRead 0 probe
  after := initAfter mode gain itime

/-- INIT (R201 to R203). -/
def execInit (mode gain : BitVec 2) (itime : Byte) (s : State) : Host.Outcome State Fault Refusal :=
  command gateInit (.init mode gain itime) (initRule Config.probeAddr mode gain itime) s

/-- SET_MODE (R205). -/
def execSetMode (mode : BitVec 2) (s : State) : Host.Outcome State Fault Refusal :=
  command gateControl (.setMode mode)
    (.single (startModify 0 Config.vControlSetup mAndMode (mOrMode mode))) s

/-- SET_GAIN (R206). -/
def execSetGain (gain : BitVec 2) (s : State) : Host.Outcome State Fault Refusal :=
  command gateControl (.setGain gain)
    (.single (startModify 0 Config.vControlSetup mAndGain (mOrGain gain))) s

/-- SET_ITIME (R207): a plain VWrite, no read. -/
def execSetItime (itime : Byte) (s : State) : Host.Outcome State Fault Refusal :=
  command gateControl (.setItime itime) (.single (startWrite 0 Config.vIntTime itime)) s

/-- SET_BULB_CUR (R208). -/
def execSetBulbCur (level : BitVec 2) (s : State) : Host.Outcome State Fault Refusal :=
  command gateControl (.setBulbCur level)
    (.single (startModify 0 Config.vLedControl mAndBulbCur (mOrBulbCur level))) s

/-- SET_BULB (R209). -/
def execSetBulb (on : BitVec 1) (s : State) : Host.Outcome State Fault Refusal :=
  command gateControl (.setBulb on)
    (.single (startModify 0 Config.vLedControl mAndBulb (mOrBulb on))) s

/-- SET_IND_CUR (R210). -/
def execSetIndCur (level : BitVec 2) (s : State) : Host.Outcome State Fault Refusal :=
  command gateControl (.setIndCur level)
    (.single (startModify 0 Config.vLedControl mAndIndCur (mOrIndCur level))) s

/-- SET_IND (R211). -/
def execSetInd (on : BitVec 1) (s : State) : Host.Outcome State Fault Refusal :=
  command gateControl (.setInd on)
    (.single (startModify 0 Config.vLedControl mAndInd (mOrInd on))) s

/-- SOFT_RESET (R215): set control-setup bit 7, then wait for the settle event with SETTLING = 1. -/
def execSoftReset (s : State) : Host.Outcome State Fault Refusal :=
  command gateControl .softReset
    { start := startModify 0 Config.vControlSetup mAndRst mOrRst
      after := fun _ s => { s with settling := true, seq := .settle }
      settled := fun s => finishOk { s with settling := false } } s

/-- GET_NAME (R220): RES_BYTE takes the variant's code. -/
def execGetName (s : State) : Host.Outcome State Fault Refusal :=
  command gateControl .getName
    { start := fun s => s.goto .lookup
      after := fun _ s => s
      look := fun s => finishByte ((variantCode s.variant).setWidth 8) s } s

/-- GET_WAVELENGTHS (R221): RES_WORD takes the variant's six wavelengths. -/
def execGetWavelengths (s : State) : Host.Outcome State Fault Refusal :=
  command gateControl .getWavelengths
    { start := fun s => s.goto .lookup
      after := fun _ s => s
      look := fun s => finishWords (wavelengthWords s.variant) s } s

end Sys2Proof.Machine
end

