-- ==== Sys2Proof/Machine/Measurement.lean ====
section
/-! DEFINITION. The measurement pipeline's commands (43_measurement). -/
namespace Sys2Proof.Machine

/-- MeasureBody() begins as channel op `k` (R241 step 1): clear data-available. -/
def measureStart (k : Nat) (s : State) : State :=
  startModify k Config.vControlSetup mAndDa 0x00 s

/-- One poll of data-available, as channel op `k` (R241 step 4). -/
def measurePoll (k : Nat) (s : State) : State := startRead k Config.vControlSetup s

/-- MeasureBody() after its channel op `k` (R241), its three channel ops being `base`, `base + 1` and `base + 2`;
`exit` is what the command does once data-available was seen. -/
def measureAfter (base : Nat) (exit : State → State) (k : Nat) (s : State) : State :=
  if k = base then
    startModify (base + 1) Config.vControlSetup mAndMode (mOrMode Config.oneshotMode) { s with measAwaiting := true }
  else if k = base + 1 then measurePoll (base + 2) s
  else if fieldDa s.vd then exit { s with measAwaiting := false }
  else s.goto (.daSleep (base + 2))

/-- TAKE_MEAS (R240 to R242). -/
def execTakeMeas (s : State) : Host.Outcome State Fault Refusal :=
  command gateControl .takeMeas
    { start := measureStart 0
      after := measureAfter 0 finishOk
      wake := measurePoll } s

/-- The bulb-off modify of TAKE_MEAS_ILLUM, its channel op 4 (R245). -/
def illumCleanup (s : State) : State := startModify 4 Config.vLedControl mAndBulb (mOrBulb 0) s

/-- The end of TAKE_MEAS_ILLUM: OK, or the first failure (R245). -/
def illumEnd (s : State) : State :=
  match s.err1 with
  | none => finishOk s
  | some f => finishFail f s

/-- TAKE_MEAS_ILLUM after its channel op `k` (R245): 0 the bulb-on modify, 1 to 3 MeasureBody, 4 the cleanup. -/
def illumAfter (k : Nat) (s : State) : State :=
  if k = 0 then measureStart 1 s
  else if k < 4 then measureAfter 1 illumCleanup k s
  else illumEnd s

/-- A failure of TAKE_MEAS_ILLUM in its channel op `k` (R245, R246): before the cleanup it is recorded and the cleanup
runs; in the cleanup CLEANUP_FAILED is set and the first failure is reported. -/
def illumFail (k : Nat) (f : Failure) (s : State) : State :=
  if k < 4 then illumCleanup { s with err1 := some f, measAwaiting := false }
  else illumEnd { s with cleanupFailed := true, err1 := some (s.err1.getD f) }

/-- TAKE_MEAS_ILLUM (R245, R246). -/
def execTakeMeasIllum (s : State) : Host.Outcome State Fault Refusal :=
  command gateControl .takeMeasIllum
    { start := fun s => startModify 0 Config.vLedControl mAndBulb (mOrBulb 1) { s with err1 := none }
      after := illumAfter
      fail := illumFail
      wake := measurePoll } s

/-- The virtual address of byte BJ of group GK (R250). -/
def calAddr (gk : BitVec 3) (bj : BitVec 2) : VAddr :=
  Config.vCalBase + Config.calStride * gk.setWidth 7 + bj.setWidth 7

/-- READ_CAL reads byte `bj` of group `gk` (R250). -/
def calRead (gk : BitVec 3) (bj : BitVec 2) (s : State) : State :=
  startRead 0 (calAddr gk bj) { s with gk := gk, bj := bj }

/-- READ_CAL after each of its VReads (R250): the byte joins ACC; after the last byte of a group, CAL_STRIDE of them, the
group goes to STAGE; after the last group, CAL_COUNT of them, the words go to RES_WORD. -/
def calAfter (s : State) : State :=
  let acc := accumulate s.acc s.vd
  if s.bj.toNat + 1 < Config.calStride.toNat then calRead s.gk (s.bj + 1) { s with acc := acc }
  else
    let stage := s.stage.setIfInBounds s.gk.toNat acc
    if s.gk.toNat + 1 < Config.calCount then calRead (s.gk + 1) 0 { s with acc := acc, stage := stage }
    else finishWords stage { s with acc := acc, stage := stage }

/-- READ_CAL (R250). -/
def execReadCal (s : State) : Host.Outcome State Fault Refusal :=
  command gateControl .readCal
    { start := calRead 0 0
      after := fun _ s => calAfter s } s

/-- READ_TEMP (R255). -/
def execReadTemp (s : State) : Host.Outcome State Fault Refusal :=
  command gateControl .readTemp
    { start := startRead 0 Config.vDeviceTemp
      after := fun _ s => finishByte s.vd s } s

end Sys2Proof.Machine
end

