-- ==== Sys2Proof/Machine/Dispatch.lean ====
section
/-! DEFINITION. One engine step of a command: one arm per row of spec/opcode_table.json. -/
namespace Sys2Proof.Machine

def exec (i : Instr) (s : State) : Host.Outcome State Fault Refusal :=
  match i with
  | .read a => Sys2Proof.Machine.execRead a s
  | .write a v => Sys2Proof.Machine.execWrite a v s
  | .modify a mAnd mOr => Sys2Proof.Machine.execModify a mAnd mOr s
  | .init mode gain itime => Sys2Proof.Machine.execInit mode gain itime s
  | .setMode mode => Sys2Proof.Machine.execSetMode mode s
  | .setGain gain => Sys2Proof.Machine.execSetGain gain s
  | .setItime itime => Sys2Proof.Machine.execSetItime itime s
  | .setBulbCur level => Sys2Proof.Machine.execSetBulbCur level s
  | .setBulb on => Sys2Proof.Machine.execSetBulb on s
  | .setIndCur level => Sys2Proof.Machine.execSetIndCur level s
  | .setInd on => Sys2Proof.Machine.execSetInd on s
  | .softReset => Sys2Proof.Machine.execSoftReset s
  | .getName => Sys2Proof.Machine.execGetName s
  | .getWavelengths => Sys2Proof.Machine.execGetWavelengths s
  | .takeMeas => Sys2Proof.Machine.execTakeMeas s
  | .takeMeasIllum => Sys2Proof.Machine.execTakeMeasIllum s
  | .readCal => Sys2Proof.Machine.execReadCal s
  | .readTemp => Sys2Proof.Machine.execReadTemp s

end Sys2Proof.Machine
end

