-- ==== Sys2Proof/Machine/HostPort.lean ====
section
/-! DEFINITION. The host port (10_state R45, R46; 60_exceptions R272, R292, R297), engine reset (70 R310), and whose
step the next one is. -/
namespace Sys2Proof.Machine

/-- What a host read of an offset returns (R46); a result register that holds no result is a fault (R297). -/
def hostRegister (s : State) (off : Nat) : Except Fault Word :=
  if off = Config.hEngStatus then .ok (engStatus s)
  else if off = Config.hTerr then .ok s.terr
  else if off = Config.hResByte then
    if s.resultValid && !s.resultWords then .ok (s.resByte.setWidth 32) else .error (.noResult off)
  else if off = Config.hFault then .ok (faultWord s)
  else if Config.hResWord ≤ off ∧ off < Config.hFault ∧ off % 4 = 0 then
    if s.resultValid && s.resultWords then
      .ok (s.resWord.toList.getD ((off - Config.hResWord) / 4) 0)
    else .error (.noResult off)
  else .ok 0

/-- A host read (R46): it changes nothing but the word it returned. -/
def hostRead (off : Nat) (s : State) : Host.Outcome State Fault Refusal :=
  match hostRegister s off with
  | .ok w => .next { s.pop with hostRd := w }
  | .error f => .fault f

/-- A write of CMD while BUSY = 1 (R292): HOST_OVERRUN is set, the running command is not disturbed. -/
def overrun (s : State) : State := { s with hostOverrun := true }

/-- The completion status of a word that does not decode (R270, R272). -/
def decodeStatus : DecodeError → Status
  | .illegalCommand => .illegalCommand
  | .badOperand => .badOperand

/-- Engine reset (R310): R50's state; the events still to come are the other agents' (log entry 12). -/
def engineReset (s : State) : State :=
  { State.reset with inbox := s.inbox, tick := s.tick }

/-- Whose step the next one is: a step of command `i`, or an action of the host port with its outcome. -/
inductive Turn where
  | run (i : Instr)
  | act (o : Host.Outcome State Fault Refusal)

/-- A host write (R45, R46, R272, R292): CMD while BUSY = 0 issues the word. -/
def hostWriteTurn (off : Nat) (w : Word) (s : State) : Turn :=
  if off = Config.hCmd then
    if s.busy then .act (.next (overrun s.pop))
    else
      match decode w with
      | .ok i => .run i
      | .error e => .act (.next (refuse (decodeStatus e) (clearForIssue s.pop)))
  else .act (.next s.pop)

/-- The engine's own turn: a step of the command in CMDL while BUSY = 1, else it waits in IDLE (R311). -/
def engineTurn (s : State) : Turn :=
  if s.busy then
    match decode s.cmdl with
    | .ok i => .run i
    | .error _ => .act (.next s.pop)
  else .act (.next s.pop)

/-- Whose step the next one is. -/
def turn (s : State) : Turn :=
  match s.peek with
  | .hostWrite off w => hostWriteTurn off w s
  | .hostRead off => .act (hostRead off s)
  | .reset => .act (.next (engineReset s.pop))
  | .transport _ => engineTurn s
  | .timer => engineTurn s
  | .abort => engineTurn s
  | .quiet => engineTurn s

/-- The host's next action is to write `w` to CMD, and the engine is ready for it (BUSY = 0, SEQ = IDLE): what it
takes for the next step to issue that word (log entry 16). -/
def placeCommand (w : Word) (s : State) : State :=
  { s with busy := false, seq := .idle, inbox := .hostWrite Config.hCmd w :: s.inbox }

end Sys2Proof.Machine
end

