-- ==== Sys2Proof/Machine/Step.lean ====
section
/-! DEFINITION. One step of the machine, and how a word comes to be its next command. -/
namespace Sys2Proof.Machine

/-- One step: the engine's step of the command whose turn it is, or the host port's action. -/
def step (s : State) : Host.Outcome State Fault Refusal :=
  match turn s with
  | .run i => exec i s
  | .act o => o

/-- The state whose next step issues the command word of `nbits` bits `w`: commands are not fetched (R88, R311), the
host writes them to CMD. -/
def State.withFetchWord (s : State) (nbits w : Nat) : State :=
  placeCommand (BitVec.ofNat 32 (w % 2 ^ nbits)) s

end Sys2Proof.Machine
end

