-- ==== Sys2Proof/Machine/RefDevice.lean ====
section
/-! DEFINITION. The reference device of 95_test_vectors Part 0: NON-NORMATIVE (92 D30). It is one environment of the
engine, no part of State; no engine rule depends on it. -/
namespace Sys2Proof.Machine

/-! ## The virtual register space of the device (20_memory R75), as canonical cells: addresses rising, no zero byte -/

/-- The byte at an address; an unlisted one reads 0 (DESIGN CHOICE, log entry 14). -/
def cellsRead (m : List Host.Cell) (a : Nat) : Byte :=
  match m with
  | [] => 0
  | (x, b) :: rest => if x = a then b else cellsRead rest a

/-- A byte stored at an address; the form stays canonical. -/
def cellsWrite (m : List Host.Cell) (a : Nat) (v : Byte) : List Host.Cell :=
  match m with
  | [] => if v = 0 then [] else [(a, v)]
  | (x, b) :: rest =>
    if a < x then (if v = 0 then (x, b) :: rest else (a, v) :: (x, b) :: rest)
    else if a = x then (if v = 0 then rest else (a, v) :: rest)
    else (x, b) :: cellsWrite rest a v

/-- Every address of the list is at least `lo`, they rise strictly, and no entry is 0. -/
def cellsWfFrom (lo : Nat) : List Host.Cell → Bool
  | [] => true
  | (x, b) :: rest => decide (lo ≤ x) && decide (b ≠ 0) && cellsWfFrom (x + 1) rest

/-- The canonical form. -/
def cellsWf (m : List Host.Cell) : Bool := cellsWfFrom 0 m

/-- The reference device's state and parameters (95 Part 0). -/
structure RefDevice where
  /-- V[0..127] -/
  cells : List Host.Cell
  /-- RESP, a pending response byte -/
  resp : Option Byte
  /-- WANT, an address awaiting its data byte -/
  want : Option VAddr
  /-- CNT, control-setup reads until the measurement is done -/
  cnt : Option Nat
  /-- D; none is "never" (95 P5) -/
  measureReads : Option Nat
  /-- DA_CLEAR_HONOURED (R7) -/
  daClearHonoured : Bool
  /-- Inside a soft-reset settle window (R299 L3, R321): a bit 7 was stored to control-setup and no settle wait has ended
  since. No answer depends on it. -/
  resetting : Bool
  deriving DecidableEq, Repr

/-- V[a] -/
def RefDevice.reg (d : RefDevice) (a : VAddr) : Byte := cellsRead d.cells a.toNat

/-- V[a] ← b -/
def RefDevice.setReg (d : RefDevice) (a : VAddr) (b : Byte) : RefDevice :=
  { d with cells := cellsWrite d.cells a.toNat b }

/-- What a store at control-setup leaves there: bit 7 self-clears, bit 1 is the old bit 1, cleared by a written 0
where that is honoured, the other bits are the written ones. -/
def RefDevice.controlByte (d : RefDevice) (b : Byte) : Byte :=
  let old := d.reg Config.vControlSetup &&& 0x02
  (b &&& 0x7D) ||| (if d.daClearHonoured then old &&& b else old)

/-- A store of `b` at `a`: control-setup has its own rule, any other address stores plainly. -/
def RefDevice.store (d : RefDevice) (a : VAddr) (b : Byte) : RefDevice :=
  if a = Config.vControlSetup then
    let d := { d.setReg a (d.controlByte b) with resetting := d.resetting || b.getLsbD 7 }
    if fieldMode (d.reg a) = Config.oneshotMode then { d with cnt := d.measureReads } else d
  else d.setReg a b

/-- A control-setup read request counts the measurement down; at 0 data-available sets. -/
def RefDevice.countDown (d : RefDevice) : RefDevice :=
  match d.cnt with
  | none => d
  | some n =>
    if n ≤ 1 then { d.setReg Config.vControlSetup (d.reg Config.vControlSetup ||| 0x02) with cnt := none }
    else { d with cnt := some (n - 1) }

/-- A read request for `a`: the response is queued. -/
def RefDevice.readRequest (d : RefDevice) (a : VAddr) : RefDevice :=
  let d := if a = Config.vControlSetup then d.countDown else d
  { d with resp := some (d.reg a) }

/-- A byte written to WRITE: the data byte awaited, else a write request, else a read request. -/
def RefDevice.write (d : RefDevice) (b : Byte) : RefDevice :=
  match d.want with
  | some a => { d.store a b with want := none }
  | none => if b &&& Config.writeFlag ≠ 0 then { d with want := some (b.setWidth 7) } else d.readRequest (b.setWidth 7)

/-- The answer to a request, and the device after it. A physical register the engine never addresses answers 0. -/
def RefDevice.answer (d : RefDevice) (x : Xfer) : Answer × RefDevice :=
  match x with
  | .busRead p =>
    if p = Config.pStatus then (.ok (if d.resp.isSome then 0x01 else 0x00), d)
    else if p = Config.pRead then (.ok (d.resp.getD 0x00), { d with resp := none })
    else (.ok 0x00, d)
  | .busWrite p v => if p = Config.pWrite then (.ok 0x00, d.write v) else (.ok 0x00, d)

end Sys2Proof.Machine
end

