-- ==== Sys2Proof/Machine/Bench.lean ====
section
/-! DEFINITION. A closed bench (non-normative, 95 Parts 0 and 8): the machine, the reference device answering every
request, a host that issues a list of words one by one (60_exceptions R299) and aborts the sleeps it is told to. -/
namespace Sys2Proof.Machine

/-- The bench. `aborts` says of each sleep to come whether the host aborts it; the timer ends those beyond. -/
structure Bench where
  eng : State
  dev : RefDevice
  words : List Word
  aborts : List Bool
  deriving DecidableEq, Repr

/-- The machine's outcome put back on the bench. -/
def Bench.outcome (b : Bench) (o : Host.Outcome State Fault Refusal) : Host.Outcome Bench Fault Refusal :=
  match o with
  | .next s => .next { b with eng := s }
  | .fault f => .fault f
  | .refused r => .refused r

/-- A step of the machine with its event given. -/
def Bench.feed (b : Bench) (e : Event) : Host.Outcome Bench Fault Refusal :=
  b.outcome (step { b.eng with inbox := e :: b.eng.inbox })

/-- One step of the bench: the device answers a request in flight; an idle engine is given the next word; a waiting
one is given its timer event, or the abort of a sleep. -/
def Bench.step (b : Bench) : Host.Outcome Bench Fault Refusal :=
  if b.eng.busy then
    match b.eng.request with
    | some x => { b with dev := (b.dev.answer x).2 }.feed (.transport (b.dev.answer x).1)
    | none =>
      if b.eng.seq = .settle then { b with dev := { b.dev with resetting := false } }.feed .timer
      else if b.eng.seq = .lookup then b.feed .timer
      else { b with aborts := b.aborts.tail }.feed (if b.aborts.headD false then .abort else .timer)
  else
    match b.words with
    | [] => b.feed .quiet
    | w :: ws => { b with words := ws }.feed (.hostWrite Config.hCmd w)

/-- `n` steps of the bench. -/
def Bench.run : Nat → Bench → Host.Outcome Bench Fault Refusal
  | 0, b => .next b
  | n + 1, b =>
    match b.step with
    | .next b' => Bench.run n b'
    | .fault f => .fault f
    | .refused r => .refused r

end Sys2Proof.Machine
end

