-- ==== Sys2Proof/Machine/Probe.lean ====
section
/-! DEFINITION. The machine instantiated at any PROBE_ADDR (00_scope R7; 92 D5): PROBE_ADDR enters INIT's rule alone. -/
namespace Sys2Proof.Machine

/-- One engine step of a command, PROBE_ADDR being `probe`. -/
def execAt (probe : VAddr) (i : Instr) (s : State) : Host.Outcome State Fault Refusal :=
  match i with
  | .init mode gain itime => command gateInit (.init mode gain itime) (initRule probe mode gain itime) s
  | .read _ | .write _ _ | .modify _ _ _ | .setMode _ | .setGain _ | .setItime _ | .setBulbCur _ | .setBulb _
  | .setIndCur _ | .setInd _ | .softReset | .getName | .getWavelengths | .takeMeas | .takeMeasIllum | .readCal
  | .readTemp => exec i s

/-- One step of the machine, PROBE_ADDR being `probe`. -/
def stepAt (probe : VAddr) (s : State) : Host.Outcome State Fault Refusal :=
  match turn s with
  | .run i => execAt probe i s
  | .act o => o

end Sys2Proof.Machine
end

