-- ==== Sys2Proof/Safety.lean ====
section
/-! DEFINITION. What claims are stated in terms of: runs of a command, the invariants of the machine (10_state R51,
R40; 20_memory R91), launch premises and the end of a run (60_exceptions R299, R300). -/
namespace Sys2Proof.Machine

/-! ## Runs -/

/-- `n` engine steps of command `i`, the first being its issue if the engine is idle. -/
def execRun (i : Instr) : Nat → State → Host.Outcome State Fault Refusal
  | 0, s => .next s
  | n + 1, s =>
    match exec i s with
    | .next t => execRun i n t
    | .fault f => .fault f
    | .refused r => .refused r

/-- The transport answers normally, once for each byte. -/
def answers (bs : List Byte) : List Event := bs.map fun b => .transport (.ok b)

/-- One VRead's answers with no stale byte and no wait: two STATUS bytes, the request's completion, a STATUS byte, the
response (R174 (b)). -/
def readAnswers (s1 s2 c s3 b : Byte) : List Event := answers [s1, s2, c, s3, b]

/-- The STATUS bytes of such a VRead: no RX_VALID, then no TX_VALID, then RX_VALID. -/
def ReadPrompt (s1 s2 s3 : Byte) : Prop := s1.getLsbD 0 = false ∧ s2.getLsbD 1 = false ∧ s3.getLsbD 0 = true

/-- Command `i` is, from its issue on an initialized engine to its OK finish, exactly one VRead of `a` whose byte goes
to RES_BYTE (R173, R255), here with no stale byte and no wait. -/
def ReadCommandRuns (i : Instr) (a : VAddr) : Prop :=
  ∀ (s : State) (e : Event) (s1 s2 c s3 b : Byte) (rest : List Event),
    s.busy = false → s.initialized = true → ReadPrompt s1 s2 s3 →
    s.inbox = e :: readAnswers s1 s2 c s3 b ++ rest →
    execRun i 6 s = .next { s with
      lastStatus := .ok, busy := false, done := true, measAwaiting := false, resultValid := true
      cleanupFailed := false, settling := false, resultWords := false, resByte := b, seq := .idle
      cmdl := encode i, va := a, vd := b, xbuf := b, sreg := s3, inbox := rest, tick := s.tick + 6
      trace := .read b :: .status s3 :: .write (0#1 ++ a) :: .status s2 :: .status s1 :: s.trace }

/-- Command `i` is, from its issue on an initialized engine to its OK finish, exactly one VWrite of `v` at `a` (R177,
R207), here with no wait. -/
def WriteCommandRuns (i : Instr) (a : VAddr) (v : Byte) : Prop :=
  ∀ (s : State) (e : Event) (s1 c1 s2 c2 : Byte) (rest : List Event),
    s.busy = false → s.initialized = true → s1.getLsbD 1 = false → s2.getLsbD 1 = false →
    s.inbox = e :: answers [s1, c1, s2, c2] ++ rest →
    execRun i 5 s = .next { s with
      lastStatus := .ok, busy := false, done := true, measAwaiting := false, resultValid := false
      cleanupFailed := false, settling := false, resultWords := false, seq := .idle
      cmdl := encode i, va := a, vd := v, xbuf := v, sreg := s2, inbox := rest, tick := s.tick + 5
      trace := .write v :: .status s2 :: .write (1#1 ++ a) :: .status s1 :: s.trace }

/-- Command `i` is, from its issue on an initialized engine to its OK finish, exactly one VModify of `a` with its two
masks (R181, R205 to R211), here with no stale byte and no wait. -/
def ModifyCommandRuns (i : Instr) (a : VAddr) (mAnd mOr : Byte) : Prop :=
  ∀ (s : State) (e : Event) (s1 s2 c s3 b s4 c4 s5 c5 : Byte) (rest : List Event),
    s.busy = false → s.initialized = true → ReadPrompt s1 s2 s3 → s4.getLsbD 1 = false → s5.getLsbD 1 = false →
    s.inbox = e :: readAnswers s1 s2 c s3 b ++ answers [s4, c4, s5, c5] ++ rest →
    execRun i 10 s = .next { s with
      lastStatus := .ok, busy := false, done := true, measAwaiting := false, resultValid := false
      cleanupFailed := false, settling := false, resultWords := false, seq := .idle
      cmdl := encode i, va := a, vd := (b &&& mAnd) ||| mOr, mand := mAnd, mor := mOr
      xbuf := (b &&& mAnd) ||| mOr, sreg := s5, inbox := rest, tick := s.tick + 10
      trace := .write ((b &&& mAnd) ||| mOr) :: .status s5 :: .write (1#1 ++ a) :: .status s4 ::
        .read b :: .status s3 :: .write (0#1 ++ a) :: .status s2 :: .status s1 :: s.trace }

/-! The abbreviations of 95_test_vectors, as the answers they need and the bus trace they leave, oldest first. -/

/-- `RD(a→x)`: a VRead with no stale byte and no wait. -/
def rdTrace (a : VAddr) (x : Byte) : List BusEvent :=
  [.status 0x00, .status 0x00, .write (0#1 ++ a), .status 0x01, .read x]

/-- `WR(a,v)`: a VWrite with no wait. -/
def wrTrace (a : VAddr) (v : Byte) : List BusEvent :=
  [.status 0x00, .write (1#1 ++ a), .status 0x00, .write v]

/-- `MD(a: x→y)`: a VModify that read x and wrote y. -/
def mdTrace (a : VAddr) (x y : Byte) : List BusEvent := rdTrace a x ++ wrTrace a y

/-- The answers of `RD(a→x)`. -/
def rdAnswers (x : Byte) : List Event := answers [0x00, 0x00, 0x00, 0x01, x]

/-- The answers of `WR(a,v)`. -/
def wrAnswers : List Event := answers [0x00, 0x00, 0x00, 0x00]

/-- The answers of `MD(a: x→y)`. -/
def mdAnswers (x : Byte) : List Event := rdAnswers x ++ wrAnswers

/-! ## Positions of a command's rule (10_state R40) -/

/-- The channel op a command's rule has as its op `k` (R173 to R255). -/
def ruleOp (i : Instr) (k : Nat) : Option OpKind :=
  match i with
  | .read _ => if k = 0 then some .vread else none
  | .write _ _ => if k = 0 then some .vwrite else none
  | .modify _ _ _ => if k = 0 then some .vmodify else none
  | .init _ _ _ =>
    if k = 0 then some .vread else if k = 5 then some .vwrite else if k < 8 then some .vmodify else none
  | .setMode _ => if k = 0 then some .vmodify else none
  | .setGain _ => if k = 0 then some .vmodify else none
  | .setItime _ => if k = 0 then some .vwrite else none
  | .setBulbCur _ => if k = 0 then some .vmodify else none
  | .setBulb _ => if k = 0 then some .vmodify else none
  | .setIndCur _ => if k = 0 then some .vmodify else none
  | .setInd _ => if k = 0 then some .vmodify else none
  | .softReset => if k = 0 then some .vmodify else none
  | .getName => none
  | .getWavelengths => none
  | .takeMeas => if k < 2 then some .vmodify else if k = 2 then some .vread else none
  | .takeMeasIllum =>
    if k < 3 then some .vmodify else if k = 3 then some .vread else if k = 4 then some .vmodify else none
  | .readCal => if k = 0 then some .vread else none
  | .readTemp => if k = 0 then some .vread else none

/-- The phases of a VRead; the others are a VWrite's (R171). -/
def Phase.ofRead : Phase → Bool
  | .rChk | .rDrain | .rTxw | .rTxs | .rReq | .rRxw | .rRxs | .rResp => true
  | .wTx1 | .wTx1s | .wAddr | .wTx2 | .wTx2s | .wData => false

/-- A phase a channel op goes through: VModify has both a VRead's and a VWrite's (R172, R176, R180). -/
def OpKind.hasPhase (ph : Phase) : OpKind → Bool
  | .vread => ph.ofRead
  | .vwrite => !ph.ofRead
  | .vmodify => true

/-- The positions of a command's rule (R40). -/
def position (i : Instr) (q : Seq) : Prop :=
  match q with
  | .idle => False
  | .chan k op ph => ruleOp i k = some op ∧ op.hasPhase ph = true
  | .daSleep k => (i = .takeMeas ∧ k = 2) ∨ (i = .takeMeasIllum ∧ k = 3)
  | .settle => i = .softReset
  | .lookup => i = .getName ∨ i = .getWavelengths

/-- The first position of a command's rule (R274). -/
def firstStep (i : Instr) : Seq :=
  match ruleOp i 0 with
  | some .vread => .chan 0 .vread .rChk
  | some .vwrite => .chan 0 .vwrite .wTx1
  | some .vmodify => .chan 0 .vmodify .rChk
  | none => .lookup

/-! ## Invariants -/

/-- The register invariants of R51. `probed` is the model's own strengthening: INIT is past its probe only with a
variant recorded. -/
structure RegsInv (s : State) : Prop where
  busyIdle : s.busy = false ↔ s.seq = .idle
  settling : s.settling = true → s.seq = .settle ∧ decode s.cmdl = .ok .softReset
  awaiting : s.measAwaiting = true → s.busy = true ∧
    (decode s.cmdl = .ok .takeMeas ∨ decode s.cmdl = .ok .takeMeasIllum)
  initialized : s.initialized = true → s.variant ≠ none
  result : s.resultValid = true → s.done = true ∧ s.lastStatus = .ok
  done : s.done = true → s.busy = false
  probed : ∀ mode gain itime k op ph, decode s.cmdl = .ok (.init mode gain itime) →
    s.seq = .chan (k + 1) op ph → s.variant ≠ none

/-- While BUSY = 1, CMDL holds a command and SEQ is a position of its rule (R40, R274). -/
def PositionInv (s : State) : Prop :=
  s.busy = true → ∃ i, decode s.cmdl = .ok i ∧ position i s.seq

/-- A STATUS read or a sleep that ended: what a poll is made of (R184). -/
def BusEvent.isPoll : BusEvent → Bool
  | .status _ => true
  | .sleep => true
  | .read _ => false
  | .write _ => false
  | .sleepAborted => false
  | .error _ => false
  | .settle => false

/-- The byte of a STATUS read. -/
def BusEvent.statusByte : BusEvent → Option Byte
  | .status b => some b
  | .read _ => none
  | .write _ => none
  | .sleep => none
  | .sleepAborted => none
  | .error _ => none
  | .settle => none

/-- The phases that decide on a STATUS read just made: WRITE is written or READ is read next (R91). -/
def Phase.decided : Phase → Bool
  | .rDrain | .rReq | .rResp | .wAddr | .wData => true
  | .rChk | .rTxw | .rTxs | .rRxw | .rRxs | .wTx1 | .wTx1s | .wTx2 | .wTx2s => false

/-- Request-response ordering (R91). SREG is the last STATUS byte read, and a write of P_WRITE or a read of P_READ comes
right after that STATUS read; P_WRITE is written only where it showed TX_VALID = 0 (a); P_READ is read only where it showed
RX_VALID = 1 (b); the data byte of a virtual write and the poll before it come, polls apart, right after its address byte,
so that the STATUS read it follows is later than the address byte (c); the response and its poll right after the request
(d). -/
structure HandshakeInv (s : State) : Prop where
  last : ∀ b, s.trace.findSome? BusEvent.statusByte = some b → s.sreg = b
  polled : ∀ k op ph, s.seq = .chan k op ph → ph.decided = true → s.trace.head? = some (.status s.sreg)
  writes : ∀ p v, s.request = some (.busWrite p v) → txv s.sreg = false
  reads : s.request = some (.busRead Config.pRead) → rxv s.sreg = true
  addressFirst : ∀ k op ph, s.seq = .chan k op ph → (ph = .wTx2 ∨ ph = .wTx2s ∨ ph = .wData) →
    (s.trace.dropWhile BusEvent.isPoll).head? = some (.write (requestByte true s.va))
  requestFirst : ∀ k op ph, s.seq = .chan k op ph → (ph = .rRxw ∨ ph = .rRxs ∨ ph = .rResp) →
    (s.trace.dropWhile BusEvent.isPoll).head? = some (.write (requestByte false s.va))

/-- FAULT = 0, the premise of every claim (R292). -/
abbrev NoFault (s : State) : Prop := s.hostOverrun = false

/-! ## Runs of the machine, launch and end of a run (R296, R299, R300) -/

/-- An infinite run: the states `r`, and the events `e` by which the other agents act, one at each step (R14). -/
def Run (e : Nat → Event) (r : Nat → State) : Prop := ∀ n, step { r n with inbox := [e n] } = .next (r (n + 1))

/-- The host asserts no engine reset in the run. -/
def NoReset (e : Nat → Event) : Prop := ∀ n, e n ≠ .reset

/-- The engine is at a `Sleep()`. -/
def State.sleeping (s : State) : Bool :=
  match s.seq with
  | .chan _ _ ph => ph.isSleep
  | .daSleep _ => true
  | .idle => false
  | .settle => false
  | .lookup => false

/-- The flag a handshake poll's STATUS read waits for, seen in `b`; none for a phase that is no such read (R184). -/
def Phase.flagSeen (b : Byte) : Phase → Option Bool
  | .rTxw | .wTx1 | .wTx2 => some (!txv b)
  | .rRxw => some (rxv b)
  | .rChk | .rDrain | .rTxs | .rReq | .rRxs | .rResp | .wTx1s | .wAddr | .wTx2s | .wData => none

/-- R296 (a): the transport answers every request. -/
def TransportAnswers (e : Nat → Event) (r : Nat → State) : Prop :=
  ∀ n x, (r n).request = some x → ∃ m, n ≤ m ∧ ∃ a, e m = .transport a

/-- R296 (b): every poll's flag is eventually observed: those of the handshake, and data-available, whose poll sleeps
before channel op `k`. -/
def FlagsAppear (e : Nat → Event) (r : Nat → State) : Prop :=
  (∀ n k op ph, (r n).seq = .chan k op ph → ph.flagSeen 0 ≠ none →
    ∃ m b, n ≤ m ∧ (r m).seq = .chan k op ph ∧ e m = .transport (.ok b) ∧ ph.flagSeen b = some true) ∧
  ∀ n k, (r n).seq = .daSleep k →
    ∃ m b, n ≤ m ∧ (r m).seq = .chan k .vread .rResp ∧ e m = .transport (.ok b) ∧ fieldDa b = true

/-- R295: the timer ends every sleep that the host does not abort. -/
def SleepsEnd (e : Nat → Event) (r : Nat → State) : Prop :=
  ∀ n, (r n).sleeping = true → ∃ m, n ≤ m ∧ (e m = .timer ∨ e m = .abort)

/-- R296 (c): the timer delivers the settle event. -/
def SettleEventComes (e : Nat → Event) (r : Nat → State) : Prop :=
  ∀ n, (r n).seq = .settle → ∃ m, n ≤ m ∧ e m = .timer

/-- R296 (d): the host aborts at a sleep. -/
def HostAborts (e : Nat → Event) (r : Nat → State) : Prop :=
  ∀ n, (r n).sleeping = true → ∃ m, n ≤ m ∧ (r m).sleeping = true ∧ e m = .abort

/-- L1: the engine holds R50's state. -/
def EngineReset (s : State) : Prop := { s with inbox := [], tick := 0 } = State.reset

/-- L1 of a claim that starts after an earlier run: BUSY = 0 and FAULT = 0. -/
def AfterRun (s : State) : Prop := s.busy = false ∧ NoFault s

/-- L2 on the reference device: no response pending, no request half received. -/
def RefDevice.CleanChannel (d : RefDevice) : Prop := d.resp = none ∧ d.want = none

/-- L3 on the reference device: not inside a soft-reset settle window that the engine did not time. -/
def RefDevice.Settled (d : RefDevice) : Prop := d.resetting = false

/-- L4: the host writes CMD only while BUSY = 0 (R292). That no second bus master acts is the model's scope (R288). -/
def SerializedHost (e : Nat → Event) (r : Nat → State) : Prop :=
  ∀ n w, e n = .hostWrite Config.hCmd w → (r n).busy = false

/-- L5: the liveness premises. An abort stands in for a flag that never appears, for nothing else. -/
structure Live (e : Nat → Event) (r : Nat → State) : Prop where
  transport : TransportAnswers e r
  sleeps : SleepsEnd e r
  settle : SettleEventComes e r
  polls : FlagsAppear e r ∨ HostAborts e r

/-- The launch premises of the bench after an earlier run: L1 to L3. Its host is serialized and its agents live by
construction (L4, L5), the device's data-available apart. -/
structure Bench.Launch (b : Bench) : Prop where
  engine : AfterRun b.eng
  channel : b.dev.CleanChannel
  settled : b.dev.Settled

/-! ## The end of a run (R300) -/

/-- The word a step issues: the one the host writes to CMD while BUSY = 0 (R272). -/
def issuedWord (s : State) : Event → List Word
  | .hostWrite off w => if off = Config.hCmd ∧ s.busy = false then [w] else []
  | .transport _ => []
  | .timer => []
  | .abort => []
  | .hostRead _ => []
  | .reset => []
  | .quiet => []

/-- The words issued in the first `n` steps of a run, oldest first. -/
def issuedWords (e : Nat → Event) (r : Nat → State) : Nat → List Word
  | 0 => []
  | n + 1 => issuedWords e r n ++ issuedWord (r n) (e n)

/-- The host program of a run is the list `ws` (R299): each word is written to CMD once BUSY = 0 after the word before it,
and nothing else is written to CMD. -/
def HostProgram (ws : List Word) (e : Nat → Event) (r : Nat → State) : Prop :=
  SerializedHost e r ∧ ∀ n, issuedWords e r n <+: ws

/-- The run of program `ws` ends after `n` steps: the first time at which every word has been issued and BUSY = 0, with no
engine reset before. A run that is stuck or hangs ends at no `n`. -/
structure EndsAt (ws : List Word) (e : Nat → Event) (r : Nat → State) (n : Nat) : Prop where
  issued : issuedWords e r n = ws
  idle : (r n).busy = false
  first : ∀ m, m < n → issuedWords e r m = ws → (r m).busy = true
  noReset : ∀ m, m < n → e m ≠ .reset

/-- The run of program `ws` is ended by an engine reset at its step `n`. -/
structure ResetAt (ws : List Word) (e : Nat → Event) (r : Nat → State) (n : Nat) : Prop where
  reset : e n = .reset
  running : ∀ m, m ≤ n → ¬EndsAt ws e r m
  noReset : ∀ m, m < n → e m ≠ .reset

/-- What is observed at the end of a run; a result only where it has a value (R297); the trace in R170's notation, which has
none for the settle wait. -/
structure Observation where
  status : Word
  terr : Word
  byte : Option Byte
  words : Option (Vector Word 6)
  fault : Word
  bus : List BusEvent
  deriving DecidableEq, Repr

/-- The events that the trace of `s` has beyond that of `l`, in the order the engine performed them. -/
def busSince (l s : State) : List BusEvent := (s.trace.take (s.trace.length - l.trace.length)).reverse

/-- The observation at the end `s` of a run launched from `l`: the bus trace is the run's own, whatever ran before it. -/
def observe (l s : State) : Observation where
  status := engStatus s
  terr := s.terr
  byte := if s.resultValid && !s.resultWords then some s.resByte else none
  words := if s.resultValid && s.resultWords then some s.resWord else none
  fault := faultWord s
  bus := (busSince l s).filter (· ≠ .settle)

/-- How a run ends: finished, with its observation; or by an engine reset, with nothing observed but that FAULT and every
host register hold R50's values: here what a host read of each offset gives. -/
inductive Ending where
  | finished (o : Observation)
  | reset (host : Nat → Except Fault Word)

/-- The run of program `ws` ends so. A claim about the end of a run that is stuck or hangs holds of it vacuously. -/
def EndsWith (ws : List Word) (e : Nat → Event) (r : Nat → State) : Ending → Prop
  | .finished o => ∃ n, EndsAt ws e r n ∧ o = observe (r 0) (r n)
  | .reset host => ∃ n, ResetAt ws e r n ∧ host = hostRegister (r (n + 1))

/-- The bench has no word left to issue and BUSY = 0. -/
def Bench.AtEnd (b : Bench) : Prop := b.words = [] ∧ b.eng.busy = false

/-- The bench's run ends after `n` steps at `c`: the first time it has no word left to issue and BUSY = 0. Its host asserts
no engine reset. -/
structure Bench.EndsAt (b : Bench) (n : Nat) (c : Bench) : Prop where
  run : b.run n = .next c
  atEnd : c.AtEnd
  first : ∀ m, m < n → ∀ c', b.run m = .next c' → ¬c'.AtEnd

end Sys2Proof.Machine
end

