-- ==== Sys2Proof/Certificates/Slice0/Obligations.lean ====
section
/-! DEFINITION. The statements of this row. Each docstring names the rule of spec/ it formalises. Where a step of a
command also does what its rule writes after its primitive, the finish among it, that is log entry 2's reading of R12;
the fields inbox, tick, trace and hostRd are the model's own (log entries 4, 12, 13).

Launch premises (R299): a statement takes of L1 to L5 what its hypotheses say and drops the rest. A statement over
every state drops L1 to L3 (BUSY and INITIALIZED are named where they matter) and L4, the next event being any or named;
one that runs a command to its finish has L5's answers, flags and timer events written in its events. InvariantsHoldAtReset
and ResetState take L1. SoftResetRunsToItsFinish's last clause takes L5 (c). WriteThenReadGivesTheByteBack says its own. -/
open Sys2Proof Sys2Proof.Machine

/-! ## Encoding (30_encoding) -/

/-- Decoding the word of a command gives the command back, with every operand at every value. -/
def Obligations.DecodeOfEncode : Prop := ∀ i : Instr, decode (encode i) = .ok i

/-- R112: the word of each command, as a number built from its operand fields, OP in bits 31:27, ADDR in 22:16, B in
15:8, C in 7:0, every unused bit 0; and no other word decodes to that command. -/
def Obligations.OperandFieldsOfEachOpcode : Prop :=
  ∀ w : Word,
    (∀ a, decode w = .ok (.read a) ↔ w.toNat = 0x01 * 2 ^ 27 + a.toNat * 2 ^ 16) ∧
    (∀ a v, decode w = .ok (.write a v) ↔ w.toNat = 0x02 * 2 ^ 27 + a.toNat * 2 ^ 16 + v.toNat) ∧
    (∀ a mAnd mOr, decode w = .ok (.modify a mAnd mOr) ↔
      w.toNat = 0x03 * 2 ^ 27 + a.toNat * 2 ^ 16 + mAnd.toNat * 2 ^ 8 + mOr.toNat) ∧
    (∀ mode gain itime, decode w = .ok (.init mode gain itime) ↔
      w.toNat = 0x04 * 2 ^ 27 + itime.toNat * 2 ^ 8 + gain.toNat * 2 ^ 2 + mode.toNat) ∧
    (∀ mode, decode w = .ok (.setMode mode) ↔ w.toNat = 0x05 * 2 ^ 27 + mode.toNat) ∧
    (∀ gain, decode w = .ok (.setGain gain) ↔ w.toNat = 0x06 * 2 ^ 27 + gain.toNat) ∧
    (∀ itime, decode w = .ok (.setItime itime) ↔ w.toNat = 0x07 * 2 ^ 27 + itime.toNat) ∧
    (∀ level, decode w = .ok (.setBulbCur level) ↔ w.toNat = 0x08 * 2 ^ 27 + level.toNat) ∧
    (∀ on, decode w = .ok (.setBulb on) ↔ w.toNat = 0x09 * 2 ^ 27 + on.toNat) ∧
    (∀ level, decode w = .ok (.setIndCur level) ↔ w.toNat = 0x0A * 2 ^ 27 + level.toNat) ∧
    (∀ on, decode w = .ok (.setInd on) ↔ w.toNat = 0x0B * 2 ^ 27 + on.toNat) ∧
    (decode w = .ok .softReset ↔ w.toNat = 0x0C * 2 ^ 27) ∧
    (decode w = .ok .getName ↔ w.toNat = 0x0D * 2 ^ 27) ∧
    (decode w = .ok .getWavelengths ↔ w.toNat = 0x0E * 2 ^ 27) ∧
    (decode w = .ok .takeMeas ↔ w.toNat = 0x0F * 2 ^ 27) ∧
    (decode w = .ok .takeMeasIllum ↔ w.toNat = 0x10 * 2 ^ 27) ∧
    (decode w = .ok .readCal ↔ w.toNat = 0x11 * 2 ^ 27) ∧
    (decode w = .ok .readTemp ↔ w.toNat = 0x12 * 2 ^ 27)

/-- R121, R122: a word whose OP is none of 0x01 to 0x12 is illegal; one with a valid OP and a must-be-zero bit set is
a bad operand; every other word is a command of its OP's row. -/
def Obligations.EveryWordIsOneOfThree : Prop :=
  ∀ w : Word,
    ((w.toNat / 2 ^ 27 = 0 ∨ 0x13 ≤ w.toNat / 2 ^ 27) → decode w = .error .illegalCommand) ∧
    ∀ op : Op, w.toNat / 2 ^ 27 = op.code.toNat →
      (w &&& op.mask ≠ op.matchWord → decode w = .error .badOperand) ∧
      (w &&& op.mask = op.matchWord → ∃ i, decode w = .ok i ∧ i.op = op)

/-- R125, R124: the spec's worked encodings, the words that do not decode, and the six pseudo-instructions, each the
word of its expansion. -/
def Obligations.WorkedEncodingsAndPseudoInstructions : Prop :=
  encode (.read 0x04) = 0x08040000 ∧ encode (.write 0x05 0x32) = 0x10050032 ∧
  encode (.modify 0x07 0xF7 0x08) = 0x1807F708 ∧ encode (.init 2 1 0x10) = 0x20001006 ∧
  encode (.setItime 0xFF) = 0x380000FF ∧ encode .readCal = 0x88000000 ∧
  decode 0x08040000 = .ok (.read 0x04) ∧ decode 0x10050032 = .ok (.write 0x05 0x32) ∧
  decode 0x1807F708 = .ok (.modify 0x07 0xF7 0x08) ∧ decode 0x20001006 = .ok (.init 2 1 0x10) ∧
  decode 0x380000FF = .ok (.setItime 0xFF) ∧ decode 0x88000000 = .ok .readCal ∧
  decode 0x00000000 = .error .illegalCommand ∧ decode 0xA0000000 = .error .illegalCommand ∧
  decode 0x08840000 = .error .badOperand ∧ decode 0x28000004 = .error .badOperand ∧
  (assemble .bulbOn = some 0x48000001 ∧ assemble .bulbOn = assemble (.setBulb 1)) ∧
  (assemble .bulbOff = some 0x48000000 ∧ assemble .bulbOff = assemble (.setBulb 0)) ∧
  (assemble .indOn = some 0x58000001 ∧ assemble .indOn = assemble (.setInd 1)) ∧
  (assemble .indOff = some 0x58000000 ∧ assemble .indOff = assemble (.setInd 0)) ∧
  (assemble .oneshot = some 0x28000003 ∧ assemble .oneshot = assemble (.setMode 3)) ∧
  (assemble .clearDa = some 0x1804FD00 ∧ assemble .clearDa = assemble (.modify 0x04 0xFD 0x00))

/-! ## The step, reset and the invariants -/

/-- A step runs the decoded command: the one a CMD write issues (R272), or the one CMDL holds while BUSY = 1 (R274). -/
def Obligations.StepRunsTheDecodedCommand : Prop :=
  (∀ (s : State) (w : Word) (rest : List Event) (i : Instr), s.busy = false →
    s.inbox = .hostWrite 0x00 w :: rest → decode w = .ok i → step s = exec i s) ∧
  (∀ (s : State) (e : Event) (rest : List Event) (i : Instr), s.busy = true → s.inbox = e :: rest →
    (e = .timer ∨ e = .abort ∨ e = .quiet ∨ ∃ a, e = .transport a) → decode s.cmdl = .ok i → step s = exec i s)

/-- R50: what reset leaves. ERR1 = 0 is written 'no failure recorded', the model's reading (log entry 18, DEDUCED). -/
def Obligations.ResetState : Prop :=
  State.reset.seq = .idle ∧ engStatus State.reset = 0x00000000 ∧ State.reset.lastStatus = .ok ∧
  State.reset.busy = false ∧ State.reset.done = false ∧ State.reset.initialized = false ∧
  State.reset.variant = none ∧ State.reset.measAwaiting = false ∧ State.reset.resultValid = false ∧
  State.reset.cleanupFailed = false ∧ State.reset.settling = false ∧ State.reset.resultWords = false ∧
  State.reset.terr = 0 ∧ State.reset.resByte = 0 ∧ State.reset.resWord = #v[0, 0, 0, 0, 0, 0] ∧
  faultWord State.reset = 0 ∧ State.reset.cmdl = 0 ∧ State.reset.va = 0 ∧ State.reset.vd = 0 ∧
  State.reset.mand = 0 ∧ State.reset.mor = 0 ∧ State.reset.xbuf = 0 ∧ State.reset.sreg = 0 ∧ State.reset.acc = 0 ∧
  State.reset.gk = 0 ∧ State.reset.bj = 0 ∧ State.reset.err1 = none ∧
  State.reset.stage = #v[0, 0, 0, 0, 0, 0] ∧
  (∀ off, (off = 0x0C ∨ off = 0x10 ∨ off = 0x14 ∨ off = 0x18 ∨ off = 0x1C ∨ off = 0x20 ∨ off = 0x24) →
    hostRegister State.reset off = .error (.noResult off))

/-- The three invariants hold at reset (R50, R51, R91). -/
def Obligations.InvariantsHoldAtReset : Prop :=
  RegsInv State.reset ∧ PositionInv State.reset ∧ HandshakeInv State.reset

/-- R51: the register invariants hold at reset and every step keeps them, so they hold in every reachable state. -/
def Obligations.StepKeepsRegsInv : Prop :=
  RegsInv State.reset ∧ ∀ s t : State, RegsInv s → step s = .next t → RegsInv t

/-- R40, R274: every step keeps "while BUSY = 1, CMDL holds a command and SEQ is a position of its rule". -/
def Obligations.StepKeepsPositionInv : Prop :=
  ∀ s t : State, PositionInv s → step s = .next t → PositionInv t

/-- R91: the request-response ordering holds at reset and every step keeps it, where the running command is at a
position of its rule (StepKeepsPositionInv). By HandshakeInv.polled the STATUS read that lets a byte be written or read
is the step right before it, so the data byte of a virtual write follows one made after its address byte. -/
def Obligations.StepKeepsHandshakeInv : Prop :=
  HandshakeInv State.reset ∧ ∀ s t : State, PositionInv s → HandshakeInv s → step s = .next t → HandshakeInv t

/-- R310: engine reset, in any state, leaves R50's values in every register; it makes no transaction. The events still
to come and the tick are the model's own (log entry 12). -/
def Obligations.EngineResetFromAnyState : Prop :=
  ∀ (s : State) (rest : List Event), s.inbox = .reset :: rest →
    step s = .next { State.reset with inbox := rest, tick := s.tick + 1 }

/-! ## The host port -/

/-- R31, R270: the fields of ENG_STATUS, and the code of each completion status. -/
def Obligations.EngStatusLayout : Prop :=
  ∀ s : State,
    (engStatus s).extractLsb' 0 4 = statusCode s.lastStatus ∧
    (engStatus s).getLsbD 4 = s.busy ∧ (engStatus s).getLsbD 5 = s.done ∧
    (engStatus s).getLsbD 6 = s.initialized ∧ (engStatus s).extractLsb' 7 2 = variantCode s.variant ∧
    (engStatus s).getLsbD 9 = s.measAwaiting ∧ (engStatus s).getLsbD 10 = s.resultValid ∧
    (engStatus s).getLsbD 11 = s.cleanupFailed ∧ (engStatus s).getLsbD 12 = s.settling ∧
    (engStatus s).getLsbD 13 = s.resultWords ∧ (engStatus s).extractLsb' 14 18 = 0 ∧
    hostRegister s 0x04 = .ok (engStatus s) ∧
    variantCode none = 0 ∧ variantCode (some .a) = 1 ∧ variantCode (some .b) = 2 ∧
    statusCode .ok = 0 ∧ statusCode .unsupportedDevice = 1 ∧ statusCode .transportError = 2 ∧
    statusCode .aborted = 3 ∧ statusCode .illegalCommand = 4 ∧ statusCode .badOperand = 5 ∧
    statusCode .notInitialized = 6 ∧ statusCode .alreadyInitialized = 7

/-- R46: the host register map, apart from the reads R297 gives no value. A read changes nothing but the word it
returned; a host write other than to CMD is ignored. -/
def Obligations.HostRegisterMap : Prop :=
  ∀ s : State,
    hostRegister s 0x00 = .ok 0 ∧ hostRegister s 0x04 = .ok (engStatus s) ∧ hostRegister s 0x08 = .ok s.terr ∧
    (s.resultValid = true → s.resultWords = false → hostRegister s 0x0C = .ok (s.resByte.setWidth 32)) ∧
    (s.resultValid = true → s.resultWords = true →
      ∀ k : Fin 6, hostRegister s (0x10 + 4 * k.val) = .ok s.resWord[k]) ∧
    hostRegister s 0x28 = .ok (if s.hostOverrun then 1 else 0) ∧
    (∀ off, off ∉ [0x00, 0x04, 0x08, 0x0C, 0x10, 0x14, 0x18, 0x1C, 0x20, 0x24, 0x28] → hostRegister s off = .ok 0) ∧
    (∀ off w rest, s.inbox = .hostRead off :: rest → hostRegister s off = .ok w →
      step s = .next { s with inbox := rest, tick := s.tick + 1, hostRd := w }) ∧
    (∀ off w rest, s.inbox = .hostWrite off w :: rest → off ≠ 0x00 →
      step s = .next { s with inbox := rest, tick := s.tick + 1 })

/-- R297: a host read of a result register that holds no result is a fault. -/
def Obligations.ResultReadWithoutValueFaults : Prop :=
  ∀ (s : State) (off : Nat) (rest : List Event), s.inbox = .hostRead off :: rest →
    ((off = 0x0C ∧ (s.resultValid = false ∨ s.resultWords = true)) ∨
      ((off = 0x10 ∨ off = 0x14 ∨ off = 0x18 ∨ off = 0x1C ∨ off = 0x20 ∨ off = 0x24) ∧
        (s.resultValid = false ∨ s.resultWords = false))) →
    step s = .fault (.noResult off)

/-- R292: a write of CMD while BUSY = 1 issues nothing, disturbs nothing, and sets HOST_OVERRUN. -/
def Obligations.WriteWhileBusyOnlySetsOverrun : Prop :=
  ∀ (s : State) (w : Word) (rest : List Event), s.busy = true → s.inbox = .hostWrite 0x00 w :: rest →
    step s = .next { s with hostOverrun := true, inbox := rest, tick := s.tick + 1 }

/-- R44: FAULT bit 0 is set by a write of CMD while BUSY = 1 and by nothing else, it is cleared by engine reset and by
nothing else, bits 31:1 read 0. -/
def Obligations.FaultIsSticky : Prop :=
  (∀ s : State, hostRegister s 0x28 = .ok (0#31 ++ BitVec.ofBool s.hostOverrun)) ∧
  ∀ s t : State, step s = .next t →
    (s.peek = .reset ∧ t.hostOverrun = false) ∨
    (s.peek ≠ .reset ∧
      (t.hostOverrun = true ↔ s.hostOverrun = true ∨ (s.busy = true ∧ ∃ w, s.peek = .hostWrite 0x00 w)))

/-- R272, R275: a word that does not decode is refused in one step: DONE and the code are written, RESULT_VALID,
RESULT_WORDS and CLEANUP_FAILED are cleared, nothing else changes and no transaction is made. -/
def Obligations.UndecodableWordIsRefused : Prop :=
  ∀ (s : State) (w : Word) (rest : List Event) (e : DecodeError), s.busy = false →
    s.inbox = .hostWrite 0x00 w :: rest → decode w = .error e →
    step s = .next { s with
      lastStatus := if e = .illegalCommand then .illegalCommand else .badOperand
      done := true, resultValid := false, resultWords := false, cleanupFailed := false
      inbox := rest, tick := s.tick + 1 }

/-- R273, R275: while INITIALIZED = 0 every command but INIT is refused with NOT_INITIALIZED, while INITIALIZED = 1
INIT is refused with ALREADY_INITIALIZED; a refused command makes no transaction and changes nothing else. -/
def Obligations.GatingRefuses : Prop :=
  (∀ (i : Instr) (s : State) (e : Event) (rest : List Event), s.busy = false → s.inbox = e :: rest →
    s.initialized = false → i.op ≠ .init →
    exec i s = .next { s with
      lastStatus := .notInitialized, done := true, resultValid := false, resultWords := false
      cleanupFailed := false, inbox := rest, tick := s.tick + 1 }) ∧
  (∀ (mode gain : BitVec 2) (itime : Byte) (s : State) (e : Event) (rest : List Event), s.busy = false →
    s.inbox = e :: rest → s.initialized = true →
    exec (.init mode gain itime) s = .next { s with
      lastStatus := .alreadyInitialized, done := true, resultValid := false, resultWords := false
      cleanupFailed := false, inbox := rest, tick := s.tick + 1 })

/-- R274: an accepted command is latched in CMDL, BUSY is set, SEQ moves to the first step of the command's rule; no
transaction is made, and no host register but ENG_STATUS changes. The finish step the two lookups then wait at is the
model's choice (log entry 3). -/
def Obligations.AcceptedCommandIsLatched : Prop :=
  ∀ (i : Instr) (s : State) (e : Event) (rest : List Event), s.busy = false → s.inbox = e :: rest →
    (s.initialized = true ↔ i.op ≠ .init) →
    ∃ t, exec i s = .next t ∧ t.cmdl = encode i ∧ t.busy = true ∧ t.seq = firstStep i ∧
      t.done = false ∧ t.resultValid = false ∧ t.resultWords = false ∧ t.cleanupFailed = false ∧
      t.trace = s.trace ∧ t.xbuf = s.xbuf ∧ t.sreg = s.sreg ∧ t.inbox = rest ∧
      t.lastStatus = s.lastStatus ∧ t.initialized = s.initialized ∧ t.variant = s.variant ∧
      t.measAwaiting = s.measAwaiting ∧ t.settling = s.settling ∧ t.terr = s.terr ∧ t.resByte = s.resByte ∧
      t.resWord = s.resWord ∧ t.hostOverrun = s.hostOverrun ∧ t.hostRd = s.hostRd

/-! ## The channel (41_channel) -/

/-- R171: the phase table. Every command, in a channel phase whose transaction returns normally with byte `b` (or whose
sleep the timer ends), goes to the phase the table gives, writing SREG on a STATUS read, VD on the response, XBUF with
the byte transferred, and nothing else; after the last phase the channel op is done. -/
def Obligations.ChannelPhaseTable : Prop :=
  ∀ (i : Instr) (s : State) (k : Nat) (op : OpKind) (b : Byte) (rest : List Event), s.busy = true →
    (s.inbox = .transport (.ok b) :: rest →
      (s.seq = .chan k op .rChk → exec i s = .next { s with
        seq := .chan k op (if b.getLsbD 0 then .rDrain else .rTxw), sreg := b, xbuf := b
        trace := .status b :: s.trace, inbox := rest, tick := s.tick + 1 }) ∧
      (s.seq = .chan k op .rDrain → exec i s = .next { s with
        seq := .chan k op .rTxw, xbuf := b
        trace := .read b :: s.trace, inbox := rest, tick := s.tick + 1 }) ∧
      (s.seq = .chan k op .rTxw → exec i s = .next { s with
        seq := .chan k op (if b.getLsbD 1 then .rTxs else .rReq), sreg := b, xbuf := b
        trace := .status b :: s.trace, inbox := rest, tick := s.tick + 1 }) ∧
      (s.seq = .chan k op .rReq → exec i s = .next { s with
        seq := .chan k op .rRxw, xbuf := 0#1 ++ s.va
        trace := .write (0#1 ++ s.va) :: s.trace, inbox := rest, tick := s.tick + 1 }) ∧
      (s.seq = .chan k op .rRxw → exec i s = .next { s with
        seq := .chan k op (if b.getLsbD 0 then .rResp else .rRxs), sreg := b, xbuf := b
        trace := .status b :: s.trace, inbox := rest, tick := s.tick + 1 }) ∧
      (s.seq = .chan k op .rResp → position i s.seq → ∃ t, exec i s = .next t ∧ t.xbuf = b ∧
        t.trace = .read b :: s.trace ∧ (op = .vread → t.vd = b)) ∧
      (s.seq = .chan k op .wTx1 → exec i s = .next { s with
        seq := .chan k op (if b.getLsbD 1 then .wTx1s else .wAddr), sreg := b, xbuf := b
        trace := .status b :: s.trace, inbox := rest, tick := s.tick + 1 }) ∧
      (s.seq = .chan k op .wAddr → exec i s = .next { s with
        seq := .chan k op .wTx2, xbuf := 1#1 ++ s.va
        trace := .write (1#1 ++ s.va) :: s.trace, inbox := rest, tick := s.tick + 1 }) ∧
      (s.seq = .chan k op .wTx2 → exec i s = .next { s with
        seq := .chan k op (if b.getLsbD 1 then .wTx2s else .wData), sreg := b, xbuf := b
        trace := .status b :: s.trace, inbox := rest, tick := s.tick + 1 }) ∧
      (s.seq = .chan k op .wData → ∃ t, exec i s = .next t ∧ t.xbuf = s.vd ∧ t.trace = .write s.vd :: s.trace)) ∧
    (s.inbox = .timer :: rest →
      ∀ ph ph', (ph, ph') ∈ [(Phase.rTxs, Phase.rTxw), (.rRxs, .rRxw), (.wTx1s, .wTx1), (.wTx2s, .wTx2)] →
        s.seq = .chan k op ph → exec i s = .next { s with
          seq := .chan k op ph', trace := .sleep :: s.trace, inbox := rest, tick := s.tick + 1 })

/-- R180: when VModify's VRead has its byte, its VWrite follows, of COMBINE of the byte and the two masks, at the same
address, whatever the value. -/
def Obligations.ModifyCombinesAndWrites : Prop :=
  ∀ (i : Instr) (s : State) (k : Nat) (b : Byte) (rest : List Event), s.busy = true →
    s.seq = .chan k .vmodify .rResp → s.inbox = .transport (.ok b) :: rest →
    exec i s = .next { s with
      seq := .chan k .vmodify .wTx1, vd := (b &&& s.mand) ||| s.mor, xbuf := b
      trace := .read b :: s.trace, inbox := rest, tick := s.tick + 1 }

/-- R174 (b), (c): a VRead, in any command, takes one STATUS read, one more READ read exactly where that STATUS byte
showed RX_VALID = 1, then its poll, request and poll; here with both polls satisfied at once, up to the response. -/
def Obligations.VReadDrainsOneStaleByte : Prop :=
  ∀ (i : Instr) (s : State) (k : Nat) (op : OpKind) (s1 x s2 c s3 : Byte) (rest : List Event), s.busy = true →
    s.seq = .chan k op .rChk → s2.getLsbD 1 = false → s3.getLsbD 0 = true →
    (s1.getLsbD 0 = false → s.inbox = answers [s1, s2, c, s3] ++ rest →
      execRun i 4 s = .next { s with
        seq := .chan k op .rResp, sreg := s3, xbuf := s3, inbox := rest, tick := s.tick + 4
        trace := .status s3 :: .write (0#1 ++ s.va) :: .status s2 :: .status s1 :: s.trace }) ∧
    (s1.getLsbD 0 = true → s.inbox = answers [s1, x, s2, c, s3] ++ rest →
      execRun i 5 s = .next { s with
        seq := .chan k op .rResp, sreg := s3, xbuf := s3, inbox := rest, tick := s.tick + 5
        trace := .status s3 :: .write (0#1 ++ s.va) :: .status s2 :: .read x :: .status s1 :: s.trace })

/-- R184: a poll is not bounded. For every n, a poll that sees its flag unmet n times is, after those n reads and n
sleeps, where it was: BUSY = 1, at the same phase, with no host register changed. -/
def Obligations.PollsAreUnbounded : Prop :=
  ∀ (i : Instr) (n : Nat) (s : State) (k : Nat) (op : OpKind) (ph : Phase) (b : Byte) (rest : List Event),
    s.busy = true → s.seq = .chan k op ph →
    ((ph = .rTxw ∨ ph = .wTx1 ∨ ph = .wTx2) ∧ b.getLsbD 1 = true ∨ ph = .rRxw ∧ b.getLsbD 0 = false) →
    s.inbox = (List.replicate n [Event.transport (.ok b), .timer]).flatten ++ rest →
    execRun i (2 * n) s = .next { s with
      sreg := if n = 0 then s.sreg else b, xbuf := if n = 0 then s.xbuf else b
      inbox := rest, tick := s.tick + 2 * n
      trace := (List.replicate n [BusEvent.sleep, .status b]).flatten ++ s.trace }

/-- R241, R284: the data-available poll is not bounded either: with DA = 0 in each of n VReads, TAKE_MEAS or
TAKE_MEAS_ILLUM is after them back at the poll's sleep, BUSY = 1. -/
def Obligations.DataAvailablePollIsUnbounded : Prop :=
  ∀ (n : Nat) (i : Instr) (k : Nat) (s : State) (b : Byte) (rest : List Event),
    (i = .takeMeas ∧ k = 2 ∨ i = .takeMeasIllum ∧ k = 3) → s.busy = true → s.seq = .daSleep k →
    b.getLsbD 1 = false →
    s.inbox = (List.replicate n (.timer :: rdAnswers b)).flatten ++ rest →
    ∃ t, execRun i (6 * n) s = .next t ∧ t.seq = .daSleep k ∧ t.busy = true ∧ t.inbox = rest ∧
      t.measAwaiting = s.measAwaiting ∧ t.busTrace = s.busTrace ++ (List.replicate n (.sleep :: rdTrace 0x04 b)).flatten

/-- R282, R186: a transaction that returns an error ends every command but TAKE_MEAS_ILLUM at once with
TRANSPORT_ERROR and the transport's code in TERR, unchanged, whatever its width (R7; log entry 8); nothing else changes
(XBUF too stays: log entry 10). -/
def Obligations.TransportErrorEndsTheCommand : Prop :=
  ∀ (i : Instr) (s : State) (x : Xfer) (e : TErr) (rest : List Event), i ≠ .takeMeasIllum → s.busy = true →
    s.request = some x → s.inbox = .transport (.error e) :: rest →
    exec i s = .next { s with
      lastStatus := .transportError, terr := e.setWidth 32, busy := false, done := true, measAwaiting := false
      settling := false, seq := .idle, trace := .error e :: s.trace, inbox := rest, tick := s.tick + 1 } ∧
    (e.setWidth 32).toNat = e.toNat

/-- R280, R185: an abort at a sleep, of a channel poll or of the data-available poll, ends every command but
TAKE_MEAS_ILLUM at once with ABORTED and no further transaction; nothing else changes. -/
def Obligations.AbortAtASleepEndsTheCommand : Prop :=
  ∀ (i : Instr) (s : State) (k : Nat) (op : OpKind) (ph : Phase) (rest : List Event), i ≠ .takeMeasIllum →
    s.busy = true →
    (s.seq = .chan k op ph ∧ (ph = .rTxs ∨ ph = .rRxs ∨ ph = .wTx1s ∨ ph = .wTx2s) ∨ s.seq = .daSleep k) →
    s.inbox = .abort :: rest →
    exec i s = .next { s with
      lastStatus := .aborted, busy := false, done := true, measAwaiting := false, settling := false, seq := .idle
      trace := .sleepAborted :: s.trace, inbox := rest, tick := s.tick + 1 }

/-- R281: an abort has no effect on an idle engine, a transaction in flight or the settle wait, and a finish step goes
as it would without it. -/
def Obligations.NoOtherAbort : Prop :=
  ∀ (s : State) (rest : List Event), s.inbox = .abort :: rest →
    (s.busy = false → step s = .next { s with inbox := rest, tick := s.tick + 1 }) ∧
    (∀ x, s.request = some x → step s = .next { s with inbox := rest, tick := s.tick + 1 }) ∧
    (s.seq = .settle → step s = .next { s with inbox := rest, tick := s.tick + 1 }) ∧
    (s.seq = .lookup → step s = step { s with inbox := .quiet :: rest })

/-- R284, R90: a transaction not yet answered: whatever else happens, the command takes no step, and only an answer of
the transport lets it; that the waiting is a next state is the model's choice (log entry 5). -/
def Obligations.UnansweredTransactionWaits : Prop :=
  ∀ (i : Instr) (s : State) (x : Xfer) (e : Event) (rest : List Event), s.busy = true → s.request = some x →
    s.inbox = e :: rest → (∀ a, e ≠ .transport a) →
    exec i s = .next { s with inbox := rest, tick := s.tick + 1 }

/-- R71, R72, R73: the only requests the engine makes are a read of STATUS, a read of READ and a write of WRITE, each
sent to DEV_ADDR. -/
def Obligations.OnlyThreePhysicalRegisters : Prop :=
  ∀ (s : State) (x : Xfer), s.request = some x →
    (x = .busRead 0x00 ∨ x = .busRead 0x02 ∨ ∃ v, x = .busWrite 0x01 v) ∧ x.dest = Config.devAddr

/-! ## Commands, from issue to finish -/

/-- READ (R173, R174) and READ_TEMP (R255), which is exactly READ 0x06: VRead(a), then RES_BYTE and an OK finish; every
other register as it was. -/
def Obligations.ReadAndReadTempRunToTheirFinish : Prop :=
  (∀ a, ReadCommandRuns (.read a) a) ∧ ReadCommandRuns .readTemp 0x06

/-- WRITE (R177, R178) and SET_ITIME (R207), one VWrite of integration-time and no read: VWrite(a, v), then an OK finish
without a result. -/
def Obligations.WriteAndSetItimeRunToTheirFinish : Prop :=
  (∀ a v, WriteCommandRuns (.write a v) a v) ∧ ∀ itime, WriteCommandRuns (.setItime itime) 0x05 itime

/-- MODIFY (R181, R182): VModify(a, m_and, m_or), then an OK finish without a result. -/
def Obligations.ModifyRunsToItsFinish : Prop := ∀ a mAnd mOr, ModifyCommandRuns (.modify a mAnd mOr) a mAnd mOr

/-- SET_MODE, SET_GAIN (R205, R206): one VModify of control-setup with the masks of R107. -/
def Obligations.ControlSettersRunToTheirFinish : Prop :=
  (∀ mode, ModifyCommandRuns (.setMode mode) 0x04 0xF3 (mode.setWidth 8 <<< 2)) ∧
  (∀ gain, ModifyCommandRuns (.setGain gain) 0x04 0xCF (gain.setWidth 8 <<< 4))

/-- SET_BULB_CUR, SET_BULB, SET_IND_CUR, SET_IND (R208 to R211): one VModify of led-control with the masks of R107. -/
def Obligations.LedSettersRunToTheirFinish : Prop :=
  (∀ level, ModifyCommandRuns (.setBulbCur level) 0x07 0xCF (level.setWidth 8 <<< 4)) ∧
  (∀ on, ModifyCommandRuns (.setBulb on) 0x07 0xF7 (on.setWidth 8 <<< 3)) ∧
  (∀ level, ModifyCommandRuns (.setIndCur level) 0x07 0xF9 (level.setWidth 8 <<< 1)) ∧
  (∀ on, ModifyCommandRuns (.setInd on) 0x07 0xFE (on.setWidth 8))

/-- SOFT_RESET (R215): sets bit 7 of control-setup by VModify, then SETTLING = 1 and BUSY = 1 until the settle event, then
an OK finish; INITIALIZED and VARIANT are kept. The first clause stops in the settle wait, the second ends it; the third
says of a run in which the settle event comes (L5 (c), R296) and no engine reset does that its settle wait ends so. -/
def Obligations.SoftResetRunsToItsFinish : Prop :=
  (∀ (s : State) (e : Event) (s1 s2 c s3 b s4 c4 s5 c5 : Byte) (rest : List Event),
    s.busy = false → s.initialized = true → ReadPrompt s1 s2 s3 → s4.getLsbD 1 = false → s5.getLsbD 1 = false →
    s.inbox = e :: readAnswers s1 s2 c s3 b ++ answers [s4, c4, s5, c5] ++ rest →
    execRun .softReset 10 s = .next { s with
      busy := true, done := false, settling := true, resultValid := false, resultWords := false
      cleanupFailed := false, seq := .settle, cmdl := encode .softReset, va := 0x04, vd := b ||| 0x80
      mand := 0xFF, mor := 0x80, xbuf := b ||| 0x80, sreg := s5, inbox := rest, tick := s.tick + 10
      trace := .write (b ||| 0x80) :: .status s5 :: .write 0x84 :: .status s4 ::
        .read b :: .status s3 :: .write 0x04 :: .status s2 :: .status s1 :: s.trace }) ∧
  (∀ (s : State) (rest : List Event), s.busy = true → s.seq = .settle → s.inbox = .timer :: rest →
    exec .softReset s = .next { s with
      lastStatus := .ok, busy := false, done := true, measAwaiting := false, settling := false, seq := .idle
      trace := .settle :: s.trace, inbox := rest, tick := s.tick + 1 }) ∧
  (∀ (e : Nat → Event) (r : Nat → State) (n : Nat), Run e r → NoReset e → SettleEventComes e r →
    (r n).busy = true → decode (r n).cmdl = .ok .softReset → (r n).seq = .settle →
    ∃ m, n < m ∧ (r m).busy = false ∧ (r m).done = true ∧ (r m).lastStatus = .ok ∧ (r m).settling = false ∧
      (r m).initialized = (r n).initialized ∧ (r m).variant = (r n).variant ∧
      (r m).trace = .settle :: (r n).trace)

/-- R326: until the timer's event the settle wait takes no step, whatever else comes; that the waiting is a next state is
the model's choice (log entry 5). -/
def Obligations.SettleWaitEndsOnlyAtTheTimer : Prop :=
  ∀ (i : Instr) (s : State) (e : Event) (rest : List Event), s.busy = true → s.seq = .settle →
    s.inbox = e :: rest → e ≠ .timer → exec i s = .next { s with inbox := rest, tick := s.tick + 1 }

/-- GET_NAME (R220): RES_BYTE takes the variant's code; no transaction. That acceptance and finish are two steps is the
model's choice (log entry 3), and so is the code 0 where VARIANT is none, which no run comes to (log entry 15). -/
def Obligations.GetNameRunsToItsFinish : Prop :=
  ∀ (s : State) (e e' : Event) (rest : List Event), s.busy = false → s.initialized = true →
    s.inbox = e :: e' :: rest →
    execRun .getName 2 s = .next { s with
      lastStatus := .ok, busy := false, done := true, measAwaiting := false, resultValid := true
      cleanupFailed := false, settling := false, resultWords := false
      resByte := (match s.variant with | none => 0 | some .a => 1 | some .b => 2)
      seq := .idle, cmdl := encode .getName, inbox := rest, tick := s.tick + 2 }

/-- GET_WAVELENGTHS (R221): RES_WORD[0..5] take the variant's six wavelengths in R151's order; no transaction. Its two
steps are the model's choice (log entry 3). -/
def Obligations.GetWavelengthsRunsToItsFinish : Prop :=
  ∀ (s : State) (v : Variant) (e e' : Event) (rest : List Event), s.busy = false → s.initialized = true →
    s.variant = some v → s.inbox = e :: e' :: rest →
    execRun .getWavelengths 2 s = .next { s with
      lastStatus := .ok, busy := false, done := true, measAwaiting := false, resultValid := true
      cleanupFailed := false, settling := false, resultWords := true
      resWord := (match v with
        | .a => #v[450, 500, 550, 570, 600, 650]
        | .b => #v[610, 680, 730, 760, 810, 860])
      seq := .idle, cmdl := encode .getWavelengths, inbox := rest, tick := s.tick + 2 }

/-- INIT's probe (R201, R283, R150, R7): it is a VRead of PROBE_ADDR, 0x01 in exec and any address in execAt, which
differs in nothing else (that VA holds it from the acceptance step on is the model's choice, log entry 21); when its
response byte is 0x3E or 0x3F, VARIANT is recorded and the bulb-current modify begins;
on any other byte the command finishes with UNSUPPORTED_DEVICE, VARIANT as it was, with no further transaction. -/
def Obligations.InitProbeDecides : Prop :=
  (∀ (probe : VAddr) (mode gain : BitVec 2) (itime : Byte) (s : State) (e : Event) (rest : List Event),
    s.busy = false → s.initialized = false → s.inbox = e :: rest →
    execAt probe (.init mode gain itime) s = .next { s with
      busy := true, done := false, resultValid := false, resultWords := false, cleanupFailed := false
      cmdl := encode (.init mode gain itime), va := probe, seq := .chan 0 .vread .rChk
      inbox := rest, tick := s.tick + 1 }) ∧
  (∀ (probe : VAddr) (i : Instr) (s : State), i.op ≠ .init ∨ s.busy = true ∨ probe = 0x01 →
    execAt probe i s = exec i s) ∧
  ∀ (mode gain : BitVec 2) (itime : Byte) (s : State) (b : Byte) (rest : List Event), s.busy = true →
    s.seq = .chan 0 .vread .rResp → s.inbox = .transport (.ok b) :: rest →
    (b = 0x3E ∨ b = 0x3F →
      exec (.init mode gain itime) s = .next { s with
        variant := if b = 0x3E then some .a else some .b
        va := 0x07, mand := 0xCF, mor := 0x00, seq := .chan 1 .vmodify .rChk, vd := b, xbuf := b
        trace := .read b :: s.trace, inbox := rest, tick := s.tick + 1 }) ∧
    (b ≠ 0x3E → b ≠ 0x3F →
      exec (.init mode gain itime) s = .next { s with
        lastStatus := .unsupportedDevice, busy := false, done := true, measAwaiting := false, settling := false
        seq := .idle, vd := b, xbuf := b
        trace := .read b :: s.trace, inbox := rest, tick := s.tick + 1 })

/-- INIT (R201, R202) run from its issue against a device whose probe byte is a variant's tag, each handshake prompt:
the LED baseline, then the integration time, the gain and the mode, in that order; INITIALIZED and VARIANT are set and
no result is left. The bytes read are any. -/
def Obligations.InitRunsToItsFinish : Prop :=
  ∀ (mode gain : BitVec 2) (itime : Byte) (s : State) (e : Event) (v : Variant) (x1 x2 x3 x4 y1 y2 : Byte)
    (rest : List Event), s.busy = false → s.initialized = false →
    s.inbox = e :: rdAnswers (match v with | .a => 0x3E | .b => 0x3F) ++ mdAnswers x1 ++ mdAnswers x2 ++
      mdAnswers x3 ++ mdAnswers x4 ++ wrAnswers ++ mdAnswers y1 ++ mdAnswers y2 ++ rest →
    ∃ t, execRun (.init mode gain itime) 64 s = .next t ∧
      t.lastStatus = .ok ∧ t.busy = false ∧ t.done = true ∧ t.initialized = true ∧ t.variant = some v ∧
      t.resultValid = false ∧ t.seq = .idle ∧ t.inbox = rest ∧ t.terr = s.terr ∧ t.resByte = s.resByte ∧
      t.resWord = s.resWord ∧ t.hostOverrun = s.hostOverrun ∧
      t.busTrace = s.busTrace ++ rdTrace 0x01 (match v with | .a => 0x3E | .b => 0x3F) ++
        mdTrace 0x07 x1 (x1 &&& 0xCF) ++ mdTrace 0x07 x2 (x2 &&& 0xF7) ++
        mdTrace 0x07 x3 (x3 &&& 0xF9) ++ mdTrace 0x07 x4 (x4 &&& 0xFE) ++ wrTrace 0x05 itime ++
        mdTrace 0x04 y1 ((y1 &&& 0xCF) ||| gain.setWidth 8 <<< 4) ++
        mdTrace 0x04 y2 ((y2 &&& 0xF3) ||| mode.setWidth 8 <<< 2)

/-- R203: a failure of INIT after its probe matched leaves INITIALIZED 0 and VARIANT as probed, and INIT may be issued
again, beginning with the probe. That VA holds the probe's address from the acceptance step on is the model's choice (log
entry 21). -/
def Obligations.FailedInitMayBeRetried : Prop :=
  ∀ (mode gain : BitVec 2) (itime : Byte) (s : State) (k : Nat) (op : OpKind) (ph : Phase) (e e' : Event)
    (rest : List Event), s.busy = true → s.initialized = false → s.seq = .chan (k + 1) op ph →
    (ph.isSleep = true ∧ e = .abort ∨ ph.isSleep = false ∧ ∃ c, e = .transport (.error c)) →
    s.inbox = e :: e' :: rest →
    ∃ t, exec (.init mode gain itime) s = .next t ∧ t.initialized = false ∧ t.variant = s.variant ∧
      t.busy = false ∧ t.lastStatus = (if ph.isSleep then .aborted else .transportError) ∧
      ∀ mode' gain' itime', ∃ u, exec (.init mode' gain' itime') t = .next u ∧ u.busy = true ∧
        u.seq = .chan 0 .vread .rChk ∧ u.va = 0x01

/-- TAKE_MEAS (R241) run from its issue, prompt, data-available seen at the second poll: clear data-available, force
one-shot, poll, sleep, poll; MEAS_AWAITING is 0 again and no result is left. The bytes read are any with those flags. -/
def Obligations.TakeMeasRunsToItsFinish : Prop :=
  ∀ (s : State) (e : Event) (x y p q : Byte) (rest : List Event), s.busy = false → s.initialized = true →
    p.getLsbD 1 = false → q.getLsbD 1 = true →
    s.inbox = e :: mdAnswers x ++ mdAnswers y ++ rdAnswers p ++ [.timer] ++ rdAnswers q ++ rest →
    ∃ t, execRun .takeMeas 30 s = .next t ∧
      t.lastStatus = .ok ∧ t.busy = false ∧ t.done = true ∧ t.measAwaiting = false ∧ t.resultValid = false ∧
      t.seq = .idle ∧ t.inbox = rest ∧ t.initialized = true ∧ t.variant = s.variant ∧ t.terr = s.terr ∧
      t.resByte = s.resByte ∧ t.resWord = s.resWord ∧ t.hostOverrun = s.hostOverrun ∧
      t.busTrace = s.busTrace ++ mdTrace 0x04 x (x &&& 0xFD) ++ mdTrace 0x04 y ((y &&& 0xF3) ||| 0x0C) ++
        rdTrace 0x04 p ++ [.sleep] ++ rdTrace 0x04 q

/-- R240, R241: MEAS_AWAITING is set when the clear-data-available write completes and cleared when a VRead of
control-setup shows DA = 1; with DA = 0 the poll sleeps; a sleep that ends polls again. In TAKE_MEAS the three channel ops
are 0 to 2 and DA = 1 is the OK finish; in TAKE_MEAS_ILLUM (R245) they are 1 to 3, begun by the bulb-on modify's end, and
DA = 1 begins the bulb-off modify. -/
def Obligations.MeasurementStateMachine : Prop :=
  ∀ (i : Instr) (k : Nat) (s : State) (b : Byte) (rest : List Event), s.busy = true →
    (i = .takeMeas ∧ k = 0 ∨ i = .takeMeasIllum ∧ k = 1) →
    (i = .takeMeasIllum → s.inbox = .transport (.ok b) :: rest → s.seq = .chan 0 .vmodify .wData →
      exec i s = .next { s with
        va := 0x04, mand := 0xFD, mor := 0x00, seq := .chan 1 .vmodify .rChk, xbuf := s.vd
        trace := .write s.vd :: s.trace, inbox := rest, tick := s.tick + 1 }) ∧
    (s.inbox = .transport (.ok b) :: rest → s.seq = .chan k .vmodify .wData →
      exec i s = .next { s with
        measAwaiting := true, va := 0x04, mand := 0xF3, mor := 0x0C, seq := .chan (k + 1) .vmodify .rChk, xbuf := s.vd
        trace := .write s.vd :: s.trace, inbox := rest, tick := s.tick + 1 }) ∧
    (s.inbox = .transport (.ok b) :: rest → s.seq = .chan (k + 1) .vmodify .wData →
      exec i s = .next { s with
        va := 0x04, seq := .chan (k + 2) .vread .rChk, xbuf := s.vd
        trace := .write s.vd :: s.trace, inbox := rest, tick := s.tick + 1 }) ∧
    (s.inbox = .transport (.ok b) :: rest → s.seq = .chan (k + 2) .vread .rResp → b.getLsbD 1 = false →
      exec i s = .next { s with
        seq := .daSleep (k + 2), vd := b, xbuf := b
        trace := .read b :: s.trace, inbox := rest, tick := s.tick + 1 }) ∧
    (i = .takeMeas → s.inbox = .transport (.ok b) :: rest → s.seq = .chan 2 .vread .rResp → b.getLsbD 1 = true →
      exec i s = .next { s with
        lastStatus := .ok, busy := false, done := true, measAwaiting := false, settling := false, seq := .idle
        vd := b, xbuf := b, trace := .read b :: s.trace, inbox := rest, tick := s.tick + 1 }) ∧
    (i = .takeMeasIllum → s.inbox = .transport (.ok b) :: rest → s.seq = .chan 3 .vread .rResp → b.getLsbD 1 = true →
      exec i s = .next { s with
        measAwaiting := false, va := 0x07, mand := 0xF7, mor := 0x00, seq := .chan 4 .vmodify .rChk
        vd := b, xbuf := b, trace := .read b :: s.trace, inbox := rest, tick := s.tick + 1 }) ∧
    (s.inbox = .timer :: rest → s.seq = .daSleep (k + 2) →
      exec i s = .next { s with
        va := 0x04, seq := .chan (k + 2) .vread .rChk, trace := .sleep :: s.trace, inbox := rest, tick := s.tick + 1 })

/-- TAKE_MEAS_ILLUM (R245) run from its issue to success, prompt: bulb on, the measurement, bulb off, 41 transactions. -/
def Obligations.IllumRunsToItsFinish : Prop :=
  ∀ (s : State) (e : Event) (l x y q m : Byte) (rest : List Event), s.busy = false → s.initialized = true →
    q.getLsbD 1 = true →
    s.inbox = e :: mdAnswers l ++ mdAnswers x ++ mdAnswers y ++ rdAnswers q ++ mdAnswers m ++ rest →
    ∃ t, execRun .takeMeasIllum 42 s = .next t ∧
      t.lastStatus = .ok ∧ t.busy = false ∧ t.done = true ∧ t.measAwaiting = false ∧ t.resultValid = false ∧
      t.cleanupFailed = false ∧ t.seq = .idle ∧ t.inbox = rest ∧ t.initialized = true ∧ t.variant = s.variant ∧
      t.terr = s.terr ∧ t.resByte = s.resByte ∧ t.resWord = s.resWord ∧ t.hostOverrun = s.hostOverrun ∧
      t.busTrace = s.busTrace ++ mdTrace 0x07 l ((l &&& 0xF7) ||| 0x08) ++ mdTrace 0x04 x (x &&& 0xFD) ++
        mdTrace 0x04 y ((y &&& 0xF3) ||| 0x0C) ++ rdTrace 0x04 q ++ mdTrace 0x07 m (m &&& 0xF7)

/-- R246 (a), R245: a failure of TAKE_MEAS_ILLUM before its cleanup, in the bulb-on modify or anywhere in MeasureBody,
does not end it: the failure is recorded in ERR1, MEAS_AWAITING is cleared, and the bulb-off modify begins (XBUF stays:
log entry 10). -/
def Obligations.IllumFailureStartsTheCleanup : Prop :=
  ∀ (s : State) (k : Nat) (op : OpKind) (ph : Phase) (rest : List Event), s.busy = true → k < 4 →
    (∀ x c, s.seq = .chan k op ph → s.request = some x → s.inbox = .transport (.error c) :: rest →
      exec .takeMeasIllum s = .next { s with
        err1 := some (.transport c), measAwaiting := false, va := 0x07, mand := 0xF7, mor := 0x00
        seq := .chan 4 .vmodify .rChk, trace := .error c :: s.trace, inbox := rest, tick := s.tick + 1 }) ∧
    ((s.seq = .chan k op ph ∧ ph.isSleep = true ∨ s.seq = .daSleep k) → s.inbox = .abort :: rest →
      exec .takeMeasIllum s = .next { s with
        err1 := some .aborted, measAwaiting := false, va := 0x07, mand := 0xF7, mor := 0x00
        seq := .chan 4 .vmodify .rChk, trace := .sleepAborted :: s.trace, inbox := rest, tick := s.tick + 1 })

/-- R246 (c): the end of TAKE_MEAS_ILLUM's cleanup. Completed, the command reports the first failure or OK; failed,
CLEANUP_FAILED is set and the first failure is reported, the cleanup's own only where nothing failed before; TERR takes
a code only with TRANSPORT_ERROR reported. That a failed transaction leaves XBUF, SREG and VD is log entry 10 (DEDUCED),
that ERR1 keeps its value at the finish log entry 18 (DEDUCED). -/
def Obligations.IllumReportsTheFirstFailure : Prop :=
  ∀ (s : State) (b : Byte) (c : TErr) (op : OpKind) (ph : Phase) (x : Xfer) (rest : List Event), s.busy = true →
    (s.seq = .chan 4 .vmodify .wData → s.inbox = .transport (.ok b) :: rest →
      exec .takeMeasIllum s = .next { s with
        lastStatus := (match s.err1 with
          | none => .ok | some (.transport _) => .transportError | some .aborted => .aborted)
        terr := (match s.err1 with
          | none => s.terr | some (.transport e) => e.setWidth 32 | some .aborted => s.terr)
        busy := false, done := true, measAwaiting := false, settling := false, seq := .idle, xbuf := s.vd
        trace := .write s.vd :: s.trace, inbox := rest, tick := s.tick + 1 }) ∧
    (s.seq = .chan 4 op ph → s.request = some x → s.inbox = .transport (.error c) :: rest →
      exec .takeMeasIllum s = .next { s with
        cleanupFailed := true
        err1 := (match s.err1 with | none => some (.transport c) | some f => some f)
        lastStatus := (match s.err1 with
          | none => .transportError | some (.transport _) => .transportError | some .aborted => .aborted)
        terr := (match s.err1 with
          | none => c.setWidth 32 | some (.transport e) => e.setWidth 32 | some .aborted => s.terr)
        busy := false, done := true, measAwaiting := false, settling := false, seq := .idle
        trace := .error c :: s.trace, inbox := rest, tick := s.tick + 1 }) ∧
    (s.seq = .chan 4 op ph → ph.isSleep = true → s.inbox = .abort :: rest →
      exec .takeMeasIllum s = .next { s with
        cleanupFailed := true
        err1 := (match s.err1 with | none => some .aborted | some f => some f)
        lastStatus := (match s.err1 with
          | none => .aborted | some (.transport _) => .transportError | some .aborted => .aborted)
        terr := (match s.err1 with
          | none => s.terr | some (.transport e) => e.setWidth 32 | some .aborted => s.terr)
        busy := false, done := true, measAwaiting := false, settling := false, seq := .idle
        trace := .sleepAborted :: s.trace, inbox := rest, tick := s.tick + 1 })

/-- R246 (a), R330: TAKE_MEAS_ILLUM, at whatever position of its rule, ends only from its bulb-off modify. -/
def Obligations.IllumEndsOnlyFromTheCleanup : Prop :=
  ∀ s t : State, s.busy = true → position .takeMeasIllum s.seq → exec .takeMeasIllum s = .next t → t.busy = false →
    ∃ ph, s.seq = .chan 4 .vmodify ph

/-- READ_CAL (R250) run from its issue, prompt: 24 VReads at 0x14 to 0x2B ascending; RES_WORD[k] is the four bytes of
group k, the first the most significant, whatever the bytes. -/
def Obligations.ReadCalRunsToItsFinish : Prop :=
  ∀ (s : State) (e : Event) (bytes : Fin 24 → Byte) (rest : List Event), s.busy = false → s.initialized = true →
    s.inbox = e :: ((List.finRange 24).map fun n => rdAnswers (bytes n)).flatten ++ rest →
    ∃ t, execRun .readCal 121 s = .next t ∧
      t.lastStatus = .ok ∧ t.busy = false ∧ t.done = true ∧ t.resultValid = true ∧ t.resultWords = true ∧
      t.seq = .idle ∧ t.inbox = rest ∧ t.initialized = true ∧ t.variant = s.variant ∧ t.terr = s.terr ∧
      t.resByte = s.resByte ∧ t.hostOverrun = s.hostOverrun ∧
      (∀ k : Fin 6, t.resWord[k].toNat =
        (bytes ⟨4 * k.val, by omega⟩).toNat * 2 ^ 24 + (bytes ⟨4 * k.val + 1, by omega⟩).toNat * 2 ^ 16 +
          (bytes ⟨4 * k.val + 2, by omega⟩).toNat * 2 ^ 8 + (bytes ⟨4 * k.val + 3, by omega⟩).toNat) ∧
      t.busTrace = s.busTrace ++
        ((List.finRange 24).map fun n => rdTrace (BitVec.ofNat 7 (0x14 + n.val)) (bytes n)).flatten

/-! ## What only some events may change -/

/-- A step of a running command that does not end it changes no host register but VARIANT, MEAS_AWAITING and SETTLING
of ENG_STATUS (R32, R39, R43). -/
def Obligations.RunningCommandLeavesHostRegisters : Prop :=
  ∀ (i : Instr) (s t : State), s.busy = true → exec i s = .next t → t.busy = true →
    t.lastStatus = s.lastStatus ∧ t.done = s.done ∧ t.initialized = s.initialized ∧
    t.resultValid = s.resultValid ∧ t.cleanupFailed = s.cleanupFailed ∧ t.resultWords = s.resultWords ∧
    t.terr = s.terr ∧ t.resByte = s.resByte ∧ t.resWord = s.resWord ∧ t.hostOverrun = s.hostOverrun ∧
    t.cmdl = s.cmdl ∧ t.hostRd = s.hostRd

/-- R36: READ_CAL alone writes ACC, GK, BJ and STAGE, TAKE_MEAS_ILLUM alone ERR1, the commands without a modify leave
MAND and MOR, those without a channel op leave VA, VD, SREG and XBUF too; no step of a command, issue included, writes
FAULT or the word of the last host read. -/
def Obligations.DatapathFrame : Prop :=
  ∀ (i : Instr) (s : State), ∃ t, exec i s = .next t ∧
    (i ≠ .readCal → t.acc = s.acc ∧ t.gk = s.gk ∧ t.bj = s.bj ∧ t.stage = s.stage) ∧
    (i ≠ .takeMeasIllum → t.err1 = s.err1) ∧
    (i.op ∈ [.read, .write, .setItime, .readCal, .readTemp, .getName, .getWavelengths] →
      t.mand = s.mand ∧ t.mor = s.mor) ∧
    (i = .getName ∨ i = .getWavelengths → position i s.seq ∨ s.busy = false →
      t.va = s.va ∧ t.vd = s.vd ∧ t.sreg = s.sreg ∧ t.xbuf = s.xbuf ∧ t.trace = s.trace) ∧
    t.hostOverrun = s.hostOverrun ∧ t.hostRd = s.hostRd

/-- R37: VARIANT is written by the probe of INIT, with the decoded tag, and by engine reset, and by nothing else. -/
def Obligations.VariantOnlyByTheProbe : Prop :=
  ∀ s t : State, PositionInv s → step s = .next t → t.variant ≠ s.variant →
    (s.peek = .reset ∧ t.variant = none) ∨
    (∃ mode gain itime b, s.busy = true ∧ decode s.cmdl = .ok (.init mode gain itime) ∧
      s.seq = .chan 0 .vread .rResp ∧ s.peek = .transport (.ok b) ∧
      (b = 0x3E ∧ t.variant = some .a ∨ b = 0x3F ∧ t.variant = some .b))

/-- R35: INITIALIZED is set only by the last step of an INIT that finishes OK, and cleared only by engine reset. -/
def Obligations.InitializedOnlyByInit : Prop :=
  ∀ s t : State, step s = .next t → t.initialized ≠ s.initialized →
    (s.peek = .reset ∧ t.initialized = false) ∨
    (∃ mode gain itime, s.busy = true ∧ decode s.cmdl = .ok (.init mode gain itime) ∧ t.initialized = true ∧
      t.busy = false ∧ t.lastStatus = .ok)

/-- R43, R276: TERR is written only when a command finishes with TRANSPORT_ERROR (and by engine reset). -/
def Obligations.TerrOnlyWithTransportError : Prop :=
  ∀ s t : State, step s = .next t → t.terr ≠ s.terr →
    (s.peek = .reset ∧ t.terr = 0) ∨
    (s.busy = true ∧ t.busy = false ∧ t.lastStatus = .transportError)

/-- R39: RES_BYTE is written only by READ, READ_TEMP and GET_NAME, RES_WORD only by READ_CAL and GET_WAVELENGTHS, each
only at an OK finish with RESULT_VALID set and RESULT_WORDS saying which (and by engine reset). -/
def Obligations.ResultsOnlyAtAnOkFinish : Prop :=
  ∀ s t : State, step s = .next t → s.peek ≠ .reset →
    (t.resByte ≠ s.resByte → s.busy = true ∧ t.busy = false ∧ t.lastStatus = .ok ∧ t.resultValid = true ∧
      t.resultWords = false ∧
      ((∃ a, decode s.cmdl = .ok (.read a)) ∨ decode s.cmdl = .ok .readTemp ∨ decode s.cmdl = .ok .getName)) ∧
    (t.resWord ≠ s.resWord → s.busy = true ∧ t.busy = false ∧ t.lastStatus = .ok ∧ t.resultValid = true ∧
      t.resultWords = true ∧ (decode s.cmdl = .ok .readCal ∨ decode s.cmdl = .ok .getWavelengths))

/-! ## The conversion decoder (40_conversion) -/

/-- R142: COMBINE, bit by bit. -/
def Obligations.CombineIsBitwise : Prop :=
  ∀ (x mAnd mOr : Byte) (n : Nat), n < 8 →
    (combine x mAnd mOr).getLsbD n = (x.getLsbD n && mAnd.getLsbD n || mOr.getLsbD n)

/-- R143, R107: each inserter is COMBINE with its row of R107; its field reads back the value put in, and every other
bit is as before. -/
def Obligations.InserterLaws : Prop :=
  (∀ cs m, insMode cs m = (cs &&& 0xF3) ||| (m.setWidth 8 <<< 2) ∧
    fieldMode (insMode cs m) = m ∧ insMode cs m &&& 0xF3 = cs &&& 0xF3) ∧
  (∀ cs g, insGain cs g = (cs &&& 0xCF) ||| (g.setWidth 8 <<< 4) ∧
    fieldGain (insGain cs g) = g ∧ insGain cs g &&& 0xCF = cs &&& 0xCF) ∧
  (∀ cs, insDaClear cs = (cs &&& 0xFD) ||| 0x00 ∧
    fieldDa (insDaClear cs) = false ∧ insDaClear cs &&& 0xFD = cs &&& 0xFD) ∧
  (∀ cs, insRst cs = (cs &&& 0xFF) ||| 0x80 ∧
    fieldRst (insRst cs) = true ∧ insRst cs &&& 0x7F = cs &&& 0x7F) ∧
  (∀ lc c, insBulbCur lc c = (lc &&& 0xCF) ||| (c.setWidth 8 <<< 4) ∧
    fieldBulbCur (insBulbCur lc c) = c ∧ insBulbCur lc c &&& 0xCF = lc &&& 0xCF) ∧
  (∀ lc o, insBulbOn lc o = (lc &&& 0xF7) ||| (o.setWidth 8 <<< 3) ∧
    fieldBulbOn (insBulbOn lc o) = o ∧ insBulbOn lc o &&& 0xF7 = lc &&& 0xF7) ∧
  (∀ lc c, insIndCur lc c = (lc &&& 0xF9) ||| (c.setWidth 8 <<< 1) ∧
    fieldIndCur (insIndCur lc c) = c ∧ insIndCur lc c &&& 0xF9 = lc &&& 0xF9) ∧
  (∀ lc o, insIndOn lc o = (lc &&& 0xFE) ||| o.setWidth 8 ∧
    fieldIndOn (insIndOn lc o) = o ∧ insIndOn lc o &&& 0xFE = lc &&& 0xFE)

/-- R150: 0x3E is VariantA, 0x3F is VariantB, every other byte is unsupported. -/
def Obligations.VariantDecode : Prop :=
  ∀ t : Byte, variantOf t = if t.toNat = 0x3E then some .a else if t.toNat = 0x3F then some .b else none

/-- R160: F32 is big-endian, b0 the most significant byte. -/
def Obligations.FloatIsBigEndian : Prop :=
  ∀ b0 b1 b2 b3 : Byte, (f32 b0 b1 b2 b3).toNat =
    b0.toNat * 2 ^ 24 + b1.toNat * 2 ^ 16 + b2.toNat * 2 ^ 8 + b3.toNat

/-- R164: the worked conversions of the spec; the numeric values rest on the binary32 layout, general knowledge the spec
supplies (R161; log entry 17). -/
def Obligations.WorkedConversions : Prop :=
  f32 0x43 0x48 0x00 0x00 = 0x43480000 ∧ f32Value 0x43480000 = .number false (200 * 2 ^ 16) (-16) ∧
  f32Value 0x3F800000 = .number false (2 ^ 23) (-23) ∧ f32Value 0xC2C80000 = .number true (100 * 2 ^ 17) (-17) ∧
  f32Value 0x00000000 = .zero false ∧ f32Value 0x80000000 = .zero true ∧
  f32Value 0x7F800000 = .infinity false ∧ f32Value 0x7FC00000 = .nan true ∧
  f32Value 0x00000001 = .number false 1 (-149) ∧ f32Value 0x00004843 = .number false 18499 (-149) ∧
  variantOf 0x3E = some .a ∧ variantOf 0x3F = some .b ∧
  variantOf 0x3D = none ∧ variantOf 0x00 = none ∧ variantOf 0xBE = none ∧
  fieldGain 0x27 = 2 ∧ fieldMode 0x0C = 3 ∧ fieldDa 0x02 = true ∧ insGain 0xFF 0 = 0xCF

/-! ## The reference device (95 Part 0, non-normative) -/

/-- R183 on the reference device, which is non-normative and in part the model's choice (log entry 14): at every address
it stores plainly and for every byte, WRITE a, v and then READ a, two words the host issues one after the other, end with
RES_BYTE = v. The end is R300's, the first at which both words have been issued and BUSY = 0, and the observation there is
given whole: the bus trace is this run's alone, whatever ran before. Launch premises (R299): of L1 it takes BUSY = 0 and
drops the reset and FAULT = 0, which it says it keeps; it takes L2 and drops L3; the bench's host is L4's, and its device
and timer answer as L5 asks. From a launch state that has them all it ends in one. -/
def Obligations.WriteThenReadGivesTheByteBack : Prop :=
  ∀ (b : Bench) (a : VAddr) (v : Byte), a ≠ 0x04 → b.eng.busy = false → b.eng.initialized = true →
    cellsWf b.dev.cells = true → b.dev.CleanChannel → b.words = [encode (.write a v), encode (.read a)] →
    ∃ c, b.EndsAt 11 c ∧
      observe b.eng c.eng = {
        status := engStatus c.eng, terr := b.eng.terr, byte := some v, words := none, fault := faultWord b.eng
        bus := wrTrace a v ++ rdTrace a v } ∧
      c.eng.resByte = v ∧ c.eng.resultValid = true ∧
      c.eng.resultWords = false ∧ c.eng.lastStatus = .ok ∧ c.dev.reg a = v ∧
      c.eng.hostOverrun = b.eng.hostOverrun ∧ c.dev.CleanChannel ∧ (b.Launch → c.Launch)
end

