-- ==== Sys2Proof/Laws/Cells.lean ====
section
/-! SUPPORT. The reference device's cells: read after write, and every operation keeps the canonical form. -/
namespace Sys2Proof.Machine

theorem cellsWf_lower {lo lo' : Nat} {m : List Host.Cell} (h : cellsWfFrom lo m = true) (le : lo' ≤ lo) :
    cellsWfFrom lo' m = true := by
  cases m with
  | nil => rfl
  | cons c rest =>
    simp only [cellsWfFrom, Bool.and_eq_true, decide_eq_true_eq] at h ⊢
    exact ⟨⟨by omega, h.1.2⟩, h.2⟩

/-- The canonical form of a non-empty list. -/
theorem cellsWf_cons {lo x : Nat} {b : Byte} {rest : List Host.Cell} :
    cellsWfFrom lo ((x, b) :: rest) = true ↔ lo ≤ x ∧ b ≠ 0 ∧ cellsWfFrom (x + 1) rest = true := by
  simp [cellsWfFrom, and_assoc]

/-- A store keeps the canonical form. -/
theorem cellsWrite_wf {lo : Nat} {m : List Host.Cell} {a : Nat} {v : Byte} (h : cellsWfFrom lo m = true)
    (le : lo ≤ a) : cellsWfFrom lo (cellsWrite m a v) = true := by
  induction m generalizing lo with
  | nil =>
    unfold cellsWrite
    split <;> simp_all [cellsWfFrom]
  | cons c rest ih =>
    obtain ⟨x, b⟩ := c
    obtain ⟨hx, hb, hr⟩ := cellsWf_cons.mp h
    unfold cellsWrite
    split
    · split
      · exact h
      · rename_i hax hv
        exact cellsWf_cons.mpr ⟨le, hv, cellsWf_cons.mpr ⟨hax, hb, hr⟩⟩
    · split
      · split
        · exact cellsWf_lower hr (by omega)
        · rename_i hax hv
          exact cellsWf_cons.mpr ⟨le, hv, hax ▸ hr⟩
      · exact cellsWf_cons.mpr ⟨hx, hb, ih hr (by omega)⟩

/-- An address below a canonical list reads 0. -/
theorem cellsRead_below {lo : Nat} {m : List Host.Cell} {a : Nat} (h : cellsWfFrom lo m = true) (lt : a < lo) :
    cellsRead m a = 0 := by
  induction m generalizing lo with
  | nil => rfl
  | cons c rest ih =>
    obtain ⟨x, b⟩ := c
    simp only [cellsWfFrom, Bool.and_eq_true, decide_eq_true_eq] at h
    have : x ≠ a := by omega
    simp only [cellsRead, this, if_false]
    exact ih h.2 (by omega)

/-- Read after write, on canonical cells. -/
theorem cellsRead_write {lo : Nat} {m : List Host.Cell} {a x : Nat} {v : Byte} (h : cellsWfFrom lo m = true) :
    cellsRead (cellsWrite m a v) x = if x = a then v else cellsRead m x := by
  induction m generalizing lo with
  | nil => grind [cellsWrite, cellsRead]
  | cons c rest ih =>
    obtain ⟨y, b⟩ := c
    obtain ⟨hy, hb, hr⟩ := cellsWf_cons.mp h
    have below : ∀ z, z < y + 1 → cellsRead rest z = 0 := fun z hz => cellsRead_below hr hz
    have := ih hr
    grind [cellsWrite, cellsRead]

/-- Every operation of the reference device keeps its cells canonical. -/
theorem RefDevice.setReg_wf {d : RefDevice} (h : cellsWf d.cells = true) (a : VAddr) (b : Byte) :
    cellsWf (d.setReg a b).cells = true := cellsWrite_wf h (Nat.zero_le _)

theorem RefDevice.store_wf {d : RefDevice} (h : cellsWf d.cells = true) (a : VAddr) (b : Byte) :
    cellsWf (d.store a b).cells = true := by
  unfold RefDevice.store
  split
  · dsimp only
    split <;> exact RefDevice.setReg_wf h _ _
  · exact RefDevice.setReg_wf h _ _

theorem RefDevice.countDown_wf {d : RefDevice} (h : cellsWf d.cells = true) : cellsWf d.countDown.cells = true := by
  unfold RefDevice.countDown
  split
  · exact h
  · split
    · exact RefDevice.setReg_wf h _ _
    · exact h

theorem RefDevice.readRequest_wf {d : RefDevice} (h : cellsWf d.cells = true) (a : VAddr) :
    cellsWf (d.readRequest a).cells = true := by
  unfold RefDevice.readRequest
  dsimp only
  split
  · exact RefDevice.countDown_wf h
  · exact h

theorem RefDevice.write_wf {d : RefDevice} (h : cellsWf d.cells = true) (b : Byte) :
    cellsWf (d.write b).cells = true := by
  unfold RefDevice.write
  split
  · exact RefDevice.store_wf h _ _
  · split
    · exact h
    · exact RefDevice.readRequest_wf h _

theorem RefDevice.answer_wf {d : RefDevice} (h : cellsWf d.cells = true) (x : Xfer) :
    cellsWf (d.answer x).2.cells = true := by
  unfold RefDevice.answer
  split
  · split
    · exact h
    · split <;> exact h
  · split
    · exact RefDevice.write_wf h _
    · exact h

end Sys2Proof.Machine
end

