-- ==== Sys2Proof/Laws/Decode.lean ====
section
/-! SUPPORT. What the fields of a command word built by `wordOf` are, and the opcode map's rows. -/
namespace Sys2Proof

@[simp] theorem Op.ofCode_code (op : Op) : Op.ofCode op.code = some op := by
  cases op <;> rfl

/-- An OP value that names a row is that row's code. -/
theorem Op.code_of_ofCode {c : BitVec 5} {op : Op} (h : Op.ofCode c = some op) : op.code = c := by
  revert op h; revert c; decide

/-- Each row's match word is its OP in bits 31:27 and 0 elsewhere (R120). -/
theorem Op.matchWord_eq (op : Op) : op.matchWord = op.code ++ 0#27 := by
  cases op <;> rfl

/-- Two different rows share no word (R120). -/
theorem Op.rows_disjoint :
    Op.all.Pairwise fun x y => x.matchWord &&& (x.mask &&& y.mask) ≠ y.matchWord &&& (x.mask &&& y.mask) := by
  decide

@[simp] theorem fieldOp_wordOf (op : BitVec 5) (a : VAddr) (b c : Byte) : fieldOp (wordOf op a b c) = op := by
  simp only [fieldOp, wordOf]
  ext i hi
  simp
  grind

@[simp] theorem fieldRsv_wordOf (op : BitVec 5) (a : VAddr) (b c : Byte) : fieldRsv (wordOf op a b c) = 0 := by
  simp only [fieldRsv, wordOf]
  ext i hi
  simp
  grind

@[simp] theorem fieldAddr_wordOf (op : BitVec 5) (a : VAddr) (b c : Byte) : fieldAddr (wordOf op a b c) = a := by
  simp only [fieldAddr, wordOf]
  ext i hi
  simp
  grind

@[simp] theorem fieldB_wordOf (op : BitVec 5) (a : VAddr) (b c : Byte) : fieldB (wordOf op a b c) = b := by
  simp only [fieldB, wordOf]
  ext i hi
  simp
  grind

@[simp] theorem fieldC_wordOf (op : BitVec 5) (a : VAddr) (b c : Byte) : fieldC (wordOf op a b c) = c := by
  simp only [fieldC, wordOf]
  ext i hi
  simp
  grind

/-- A word built from its fields, masked field by field. -/
theorem wordOf_and (op mo : BitVec 5) (mr : BitVec 4) (a ma : VAddr) (b mb c mc : Byte) :
    wordOf op a b c &&& (mo ++ mr ++ ma ++ mb ++ mc : BitVec (5 + 4 + 7 + 8 + 8)) =
      ((op &&& mo) ++ 0#4 ++ (a &&& ma) ++ (b &&& mb) ++ (c &&& mc)
        : BitVec (5 + 4 + 7 + 8 + 8)) := by
  simp only [wordOf]
  erw [BitVec.and_append, BitVec.and_append, BitVec.and_append, BitVec.and_append]
  simp

end Sys2Proof
end

