-- ==== Sys2Proof/Laws/State.lean ====
section
/-! SUPPORT. One lemma per field per update of State: what each shared update leaves in each field. -/
namespace Sys2Proof.Machine

variable (s : State)

/-! State.pop -/
@[simp] theorem State.pop_lastStatus : s.pop.lastStatus = s.lastStatus := rfl
@[simp] theorem State.pop_busy : s.pop.busy = s.busy := rfl
@[simp] theorem State.pop_done : s.pop.done = s.done := rfl
@[simp] theorem State.pop_initialized : s.pop.initialized = s.initialized := rfl
@[simp] theorem State.pop_variant : s.pop.variant = s.variant := rfl
@[simp] theorem State.pop_measAwaiting : s.pop.measAwaiting = s.measAwaiting := rfl
@[simp] theorem State.pop_resultValid : s.pop.resultValid = s.resultValid := rfl
@[simp] theorem State.pop_cleanupFailed : s.pop.cleanupFailed = s.cleanupFailed := rfl
@[simp] theorem State.pop_settling : s.pop.settling = s.settling := rfl
@[simp] theorem State.pop_resultWords : s.pop.resultWords = s.resultWords := rfl
@[simp] theorem State.pop_terr : s.pop.terr = s.terr := rfl
@[simp] theorem State.pop_resByte : s.pop.resByte = s.resByte := rfl
@[simp] theorem State.pop_resWord : s.pop.resWord = s.resWord := rfl
@[simp] theorem State.pop_hostOverrun : s.pop.hostOverrun = s.hostOverrun := rfl
@[simp] theorem State.pop_seq : s.pop.seq = s.seq := rfl
@[simp] theorem State.pop_cmdl : s.pop.cmdl = s.cmdl := rfl
@[simp] theorem State.pop_va : s.pop.va = s.va := rfl
@[simp] theorem State.pop_vd : s.pop.vd = s.vd := rfl
@[simp] theorem State.pop_mand : s.pop.mand = s.mand := rfl
@[simp] theorem State.pop_mor : s.pop.mor = s.mor := rfl
@[simp] theorem State.pop_xbuf : s.pop.xbuf = s.xbuf := rfl
@[simp] theorem State.pop_sreg : s.pop.sreg = s.sreg := rfl
@[simp] theorem State.pop_acc : s.pop.acc = s.acc := rfl
@[simp] theorem State.pop_gk : s.pop.gk = s.gk := rfl
@[simp] theorem State.pop_bj : s.pop.bj = s.bj := rfl
@[simp] theorem State.pop_err1 : s.pop.err1 = s.err1 := rfl
@[simp] theorem State.pop_stage : s.pop.stage = s.stage := rfl
@[simp] theorem State.pop_inbox : s.pop.inbox = s.inbox.tail := rfl
@[simp] theorem State.pop_tick : s.pop.tick = s.tick + 1 := rfl
@[simp] theorem State.pop_trace : s.pop.trace = s.trace := rfl
@[simp] theorem State.pop_hostRd : s.pop.hostRd = s.hostRd := rfl

/-! State.log -/
@[simp] theorem State.log_lastStatus (e : BusEvent) : (s.log e).lastStatus = s.lastStatus := rfl
@[simp] theorem State.log_busy (e : BusEvent) : (s.log e).busy = s.busy := rfl
@[simp] theorem State.log_done (e : BusEvent) : (s.log e).done = s.done := rfl
@[simp] theorem State.log_initialized (e : BusEvent) : (s.log e).initialized = s.initialized := rfl
@[simp] theorem State.log_variant (e : BusEvent) : (s.log e).variant = s.variant := rfl
@[simp] theorem State.log_measAwaiting (e : BusEvent) : (s.log e).measAwaiting = s.measAwaiting := rfl
@[simp] theorem State.log_resultValid (e : BusEvent) : (s.log e).resultValid = s.resultValid := rfl
@[simp] theorem State.log_cleanupFailed (e : BusEvent) : (s.log e).cleanupFailed = s.cleanupFailed := rfl
@[simp] theorem State.log_settling (e : BusEvent) : (s.log e).settling = s.settling := rfl
@[simp] theorem State.log_resultWords (e : BusEvent) : (s.log e).resultWords = s.resultWords := rfl
@[simp] theorem State.log_terr (e : BusEvent) : (s.log e).terr = s.terr := rfl
@[simp] theorem State.log_resByte (e : BusEvent) : (s.log e).resByte = s.resByte := rfl
@[simp] theorem State.log_resWord (e : BusEvent) : (s.log e).resWord = s.resWord := rfl
@[simp] theorem State.log_hostOverrun (e : BusEvent) : (s.log e).hostOverrun = s.hostOverrun := rfl
@[simp] theorem State.log_seq (e : BusEvent) : (s.log e).seq = s.seq := rfl
@[simp] theorem State.log_cmdl (e : BusEvent) : (s.log e).cmdl = s.cmdl := rfl
@[simp] theorem State.log_va (e : BusEvent) : (s.log e).va = s.va := rfl
@[simp] theorem State.log_vd (e : BusEvent) : (s.log e).vd = s.vd := rfl
@[simp] theorem State.log_mand (e : BusEvent) : (s.log e).mand = s.mand := rfl
@[simp] theorem State.log_mor (e : BusEvent) : (s.log e).mor = s.mor := rfl
@[simp] theorem State.log_xbuf (e : BusEvent) : (s.log e).xbuf = s.xbuf := rfl
@[simp] theorem State.log_sreg (e : BusEvent) : (s.log e).sreg = s.sreg := rfl
@[simp] theorem State.log_acc (e : BusEvent) : (s.log e).acc = s.acc := rfl
@[simp] theorem State.log_gk (e : BusEvent) : (s.log e).gk = s.gk := rfl
@[simp] theorem State.log_bj (e : BusEvent) : (s.log e).bj = s.bj := rfl
@[simp] theorem State.log_err1 (e : BusEvent) : (s.log e).err1 = s.err1 := rfl
@[simp] theorem State.log_stage (e : BusEvent) : (s.log e).stage = s.stage := rfl
@[simp] theorem State.log_inbox (e : BusEvent) : (s.log e).inbox = s.inbox := rfl
@[simp] theorem State.log_tick (e : BusEvent) : (s.log e).tick = s.tick := rfl
@[simp] theorem State.log_trace (e : BusEvent) : (s.log e).trace = e :: s.trace := rfl
@[simp] theorem State.log_hostRd (e : BusEvent) : (s.log e).hostRd = s.hostRd := rfl

/-! State.gotStatus -/
@[simp] theorem State.gotStatus_lastStatus (b : Byte) : (s.gotStatus b).lastStatus = s.lastStatus := rfl
@[simp] theorem State.gotStatus_busy (b : Byte) : (s.gotStatus b).busy = s.busy := rfl
@[simp] theorem State.gotStatus_done (b : Byte) : (s.gotStatus b).done = s.done := rfl
@[simp] theorem State.gotStatus_initialized (b : Byte) : (s.gotStatus b).initialized = s.initialized := rfl
@[simp] theorem State.gotStatus_variant (b : Byte) : (s.gotStatus b).variant = s.variant := rfl
@[simp] theorem State.gotStatus_measAwaiting (b : Byte) : (s.gotStatus b).measAwaiting = s.measAwaiting := rfl
@[simp] theorem State.gotStatus_resultValid (b : Byte) : (s.gotStatus b).resultValid = s.resultValid := rfl
@[simp] theorem State.gotStatus_cleanupFailed (b : Byte) : (s.gotStatus b).cleanupFailed = s.cleanupFailed := rfl
@[simp] theorem State.gotStatus_settling (b : Byte) : (s.gotStatus b).settling = s.settling := rfl
@[simp] theorem State.gotStatus_resultWords (b : Byte) : (s.gotStatus b).resultWords = s.resultWords := rfl
@[simp] theorem State.gotStatus_terr (b : Byte) : (s.gotStatus b).terr = s.terr := rfl
@[simp] theorem State.gotStatus_resByte (b : Byte) : (s.gotStatus b).resByte = s.resByte := rfl
@[simp] theorem State.gotStatus_resWord (b : Byte) : (s.gotStatus b).resWord = s.resWord := rfl
@[simp] theorem State.gotStatus_hostOverrun (b : Byte) : (s.gotStatus b).hostOverrun = s.hostOverrun := rfl
@[simp] theorem State.gotStatus_seq (b : Byte) : (s.gotStatus b).seq = s.seq := rfl
@[simp] theorem State.gotStatus_cmdl (b : Byte) : (s.gotStatus b).cmdl = s.cmdl := rfl
@[simp] theorem State.gotStatus_va (b : Byte) : (s.gotStatus b).va = s.va := rfl
@[simp] theorem State.gotStatus_vd (b : Byte) : (s.gotStatus b).vd = s.vd := rfl
@[simp] theorem State.gotStatus_mand (b : Byte) : (s.gotStatus b).mand = s.mand := rfl
@[simp] theorem State.gotStatus_mor (b : Byte) : (s.gotStatus b).mor = s.mor := rfl
@[simp] theorem State.gotStatus_xbuf (b : Byte) : (s.gotStatus b).xbuf = b := rfl
@[simp] theorem State.gotStatus_sreg (b : Byte) : (s.gotStatus b).sreg = b := rfl
@[simp] theorem State.gotStatus_acc (b : Byte) : (s.gotStatus b).acc = s.acc := rfl
@[simp] theorem State.gotStatus_gk (b : Byte) : (s.gotStatus b).gk = s.gk := rfl
@[simp] theorem State.gotStatus_bj (b : Byte) : (s.gotStatus b).bj = s.bj := rfl
@[simp] theorem State.gotStatus_err1 (b : Byte) : (s.gotStatus b).err1 = s.err1 := rfl
@[simp] theorem State.gotStatus_stage (b : Byte) : (s.gotStatus b).stage = s.stage := rfl
@[simp] theorem State.gotStatus_inbox (b : Byte) : (s.gotStatus b).inbox = s.inbox := rfl
@[simp] theorem State.gotStatus_tick (b : Byte) : (s.gotStatus b).tick = s.tick := rfl
@[simp] theorem State.gotStatus_trace (b : Byte) : (s.gotStatus b).trace = .status b :: s.trace := rfl
@[simp] theorem State.gotStatus_hostRd (b : Byte) : (s.gotStatus b).hostRd = s.hostRd := rfl

/-! State.gotStale -/
@[simp] theorem State.gotStale_lastStatus (b : Byte) : (s.gotStale b).lastStatus = s.lastStatus := rfl
@[simp] theorem State.gotStale_busy (b : Byte) : (s.gotStale b).busy = s.busy := rfl
@[simp] theorem State.gotStale_done (b : Byte) : (s.gotStale b).done = s.done := rfl
@[simp] theorem State.gotStale_initialized (b : Byte) : (s.gotStale b).initialized = s.initialized := rfl
@[simp] theorem State.gotStale_variant (b : Byte) : (s.gotStale b).variant = s.variant := rfl
@[simp] theorem State.gotStale_measAwaiting (b : Byte) : (s.gotStale b).measAwaiting = s.measAwaiting := rfl
@[simp] theorem State.gotStale_resultValid (b : Byte) : (s.gotStale b).resultValid = s.resultValid := rfl
@[simp] theorem State.gotStale_cleanupFailed (b : Byte) : (s.gotStale b).cleanupFailed = s.cleanupFailed := rfl
@[simp] theorem State.gotStale_settling (b : Byte) : (s.gotStale b).settling = s.settling := rfl
@[simp] theorem State.gotStale_resultWords (b : Byte) : (s.gotStale b).resultWords = s.resultWords := rfl
@[simp] theorem State.gotStale_terr (b : Byte) : (s.gotStale b).terr = s.terr := rfl
@[simp] theorem State.gotStale_resByte (b : Byte) : (s.gotStale b).resByte = s.resByte := rfl
@[simp] theorem State.gotStale_resWord (b : Byte) : (s.gotStale b).resWord = s.resWord := rfl
@[simp] theorem State.gotStale_hostOverrun (b : Byte) : (s.gotStale b).hostOverrun = s.hostOverrun := rfl
@[simp] theorem State.gotStale_seq (b : Byte) : (s.gotStale b).seq = s.seq := rfl
@[simp] theorem State.gotStale_cmdl (b : Byte) : (s.gotStale b).cmdl = s.cmdl := rfl
@[simp] theorem State.gotStale_va (b : Byte) : (s.gotStale b).va = s.va := rfl
@[simp] theorem State.gotStale_vd (b : Byte) : (s.gotStale b).vd = s.vd := rfl
@[simp] theorem State.gotStale_mand (b : Byte) : (s.gotStale b).mand = s.mand := rfl
@[simp] theorem State.gotStale_mor (b : Byte) : (s.gotStale b).mor = s.mor := rfl
@[simp] theorem State.gotStale_xbuf (b : Byte) : (s.gotStale b).xbuf = b := rfl
@[simp] theorem State.gotStale_sreg (b : Byte) : (s.gotStale b).sreg = s.sreg := rfl
@[simp] theorem State.gotStale_acc (b : Byte) : (s.gotStale b).acc = s.acc := rfl
@[simp] theorem State.gotStale_gk (b : Byte) : (s.gotStale b).gk = s.gk := rfl
@[simp] theorem State.gotStale_bj (b : Byte) : (s.gotStale b).bj = s.bj := rfl
@[simp] theorem State.gotStale_err1 (b : Byte) : (s.gotStale b).err1 = s.err1 := rfl
@[simp] theorem State.gotStale_stage (b : Byte) : (s.gotStale b).stage = s.stage := rfl
@[simp] theorem State.gotStale_inbox (b : Byte) : (s.gotStale b).inbox = s.inbox := rfl
@[simp] theorem State.gotStale_tick (b : Byte) : (s.gotStale b).tick = s.tick := rfl
@[simp] theorem State.gotStale_trace (b : Byte) : (s.gotStale b).trace = .read b :: s.trace := rfl
@[simp] theorem State.gotStale_hostRd (b : Byte) : (s.gotStale b).hostRd = s.hostRd := rfl

/-! State.gotResponse -/
@[simp] theorem State.gotResponse_lastStatus (b : Byte) : (s.gotResponse b).lastStatus = s.lastStatus := rfl
@[simp] theorem State.gotResponse_busy (b : Byte) : (s.gotResponse b).busy = s.busy := rfl
@[simp] theorem State.gotResponse_done (b : Byte) : (s.gotResponse b).done = s.done := rfl
@[simp] theorem State.gotResponse_initialized (b : Byte) : (s.gotResponse b).initialized = s.initialized := rfl
@[simp] theorem State.gotResponse_variant (b : Byte) : (s.gotResponse b).variant = s.variant := rfl
@[simp] theorem State.gotResponse_measAwaiting (b : Byte) : (s.gotResponse b).measAwaiting = s.measAwaiting := rfl
@[simp] theorem State.gotResponse_resultValid (b : Byte) : (s.gotResponse b).resultValid = s.resultValid := rfl
@[simp] theorem State.gotResponse_cleanupFailed (b : Byte) : (s.gotResponse b).cleanupFailed = s.cleanupFailed := rfl
@[simp] theorem State.gotResponse_settling (b : Byte) : (s.gotResponse b).settling = s.settling := rfl
@[simp] theorem State.gotResponse_resultWords (b : Byte) : (s.gotResponse b).resultWords = s.resultWords := rfl
@[simp] theorem State.gotResponse_terr (b : Byte) : (s.gotResponse b).terr = s.terr := rfl
@[simp] theorem State.gotResponse_resByte (b : Byte) : (s.gotResponse b).resByte = s.resByte := rfl
@[simp] theorem State.gotResponse_resWord (b : Byte) : (s.gotResponse b).resWord = s.resWord := rfl
@[simp] theorem State.gotResponse_hostOverrun (b : Byte) : (s.gotResponse b).hostOverrun = s.hostOverrun := rfl
@[simp] theorem State.gotResponse_seq (b : Byte) : (s.gotResponse b).seq = s.seq := rfl
@[simp] theorem State.gotResponse_cmdl (b : Byte) : (s.gotResponse b).cmdl = s.cmdl := rfl
@[simp] theorem State.gotResponse_va (b : Byte) : (s.gotResponse b).va = s.va := rfl
@[simp] theorem State.gotResponse_vd (b : Byte) : (s.gotResponse b).vd = b := rfl
@[simp] theorem State.gotResponse_mand (b : Byte) : (s.gotResponse b).mand = s.mand := rfl
@[simp] theorem State.gotResponse_mor (b : Byte) : (s.gotResponse b).mor = s.mor := rfl
@[simp] theorem State.gotResponse_xbuf (b : Byte) : (s.gotResponse b).xbuf = b := rfl
@[simp] theorem State.gotResponse_sreg (b : Byte) : (s.gotResponse b).sreg = s.sreg := rfl
@[simp] theorem State.gotResponse_acc (b : Byte) : (s.gotResponse b).acc = s.acc := rfl
@[simp] theorem State.gotResponse_gk (b : Byte) : (s.gotResponse b).gk = s.gk := rfl
@[simp] theorem State.gotResponse_bj (b : Byte) : (s.gotResponse b).bj = s.bj := rfl
@[simp] theorem State.gotResponse_err1 (b : Byte) : (s.gotResponse b).err1 = s.err1 := rfl
@[simp] theorem State.gotResponse_stage (b : Byte) : (s.gotResponse b).stage = s.stage := rfl
@[simp] theorem State.gotResponse_inbox (b : Byte) : (s.gotResponse b).inbox = s.inbox := rfl
@[simp] theorem State.gotResponse_tick (b : Byte) : (s.gotResponse b).tick = s.tick := rfl
@[simp] theorem State.gotResponse_trace (b : Byte) : (s.gotResponse b).trace = .read b :: s.trace := rfl
@[simp] theorem State.gotResponse_hostRd (b : Byte) : (s.gotResponse b).hostRd = s.hostRd := rfl

/-! State.wrote -/
@[simp] theorem State.wrote_lastStatus (v : Byte) : (s.wrote v).lastStatus = s.lastStatus := rfl
@[simp] theorem State.wrote_busy (v : Byte) : (s.wrote v).busy = s.busy := rfl
@[simp] theorem State.wrote_done (v : Byte) : (s.wrote v).done = s.done := rfl
@[simp] theorem State.wrote_initialized (v : Byte) : (s.wrote v).initialized = s.initialized := rfl
@[simp] theorem State.wrote_variant (v : Byte) : (s.wrote v).variant = s.variant := rfl
@[simp] theorem State.wrote_measAwaiting (v : Byte) : (s.wrote v).measAwaiting = s.measAwaiting := rfl
@[simp] theorem State.wrote_resultValid (v : Byte) : (s.wrote v).resultValid = s.resultValid := rfl
@[simp] theorem State.wrote_cleanupFailed (v : Byte) : (s.wrote v).cleanupFailed = s.cleanupFailed := rfl
@[simp] theorem State.wrote_settling (v : Byte) : (s.wrote v).settling = s.settling := rfl
@[simp] theorem State.wrote_resultWords (v : Byte) : (s.wrote v).resultWords = s.resultWords := rfl
@[simp] theorem State.wrote_terr (v : Byte) : (s.wrote v).terr = s.terr := rfl
@[simp] theorem State.wrote_resByte (v : Byte) : (s.wrote v).resByte = s.resByte := rfl
@[simp] theorem State.wrote_resWord (v : Byte) : (s.wrote v).resWord = s.resWord := rfl
@[simp] theorem State.wrote_hostOverrun (v : Byte) : (s.wrote v).hostOverrun = s.hostOverrun := rfl
@[simp] theorem State.wrote_seq (v : Byte) : (s.wrote v).seq = s.seq := rfl
@[simp] theorem State.wrote_cmdl (v : Byte) : (s.wrote v).cmdl = s.cmdl := rfl
@[simp] theorem State.wrote_va (v : Byte) : (s.wrote v).va = s.va := rfl
@[simp] theorem State.wrote_vd (v : Byte) : (s.wrote v).vd = s.vd := rfl
@[simp] theorem State.wrote_mand (v : Byte) : (s.wrote v).mand = s.mand := rfl
@[simp] theorem State.wrote_mor (v : Byte) : (s.wrote v).mor = s.mor := rfl
@[simp] theorem State.wrote_xbuf (v : Byte) : (s.wrote v).xbuf = v := rfl
@[simp] theorem State.wrote_sreg (v : Byte) : (s.wrote v).sreg = s.sreg := rfl
@[simp] theorem State.wrote_acc (v : Byte) : (s.wrote v).acc = s.acc := rfl
@[simp] theorem State.wrote_gk (v : Byte) : (s.wrote v).gk = s.gk := rfl
@[simp] theorem State.wrote_bj (v : Byte) : (s.wrote v).bj = s.bj := rfl
@[simp] theorem State.wrote_err1 (v : Byte) : (s.wrote v).err1 = s.err1 := rfl
@[simp] theorem State.wrote_stage (v : Byte) : (s.wrote v).stage = s.stage := rfl
@[simp] theorem State.wrote_inbox (v : Byte) : (s.wrote v).inbox = s.inbox := rfl
@[simp] theorem State.wrote_tick (v : Byte) : (s.wrote v).tick = s.tick := rfl
@[simp] theorem State.wrote_trace (v : Byte) : (s.wrote v).trace = .write v :: s.trace := rfl
@[simp] theorem State.wrote_hostRd (v : Byte) : (s.wrote v).hostRd = s.hostRd := rfl

/-! State.goto -/
@[simp] theorem State.goto_lastStatus (q : Seq) : (s.goto q).lastStatus = s.lastStatus := rfl
@[simp] theorem State.goto_busy (q : Seq) : (s.goto q).busy = s.busy := rfl
@[simp] theorem State.goto_done (q : Seq) : (s.goto q).done = s.done := rfl
@[simp] theorem State.goto_initialized (q : Seq) : (s.goto q).initialized = s.initialized := rfl
@[simp] theorem State.goto_variant (q : Seq) : (s.goto q).variant = s.variant := rfl
@[simp] theorem State.goto_measAwaiting (q : Seq) : (s.goto q).measAwaiting = s.measAwaiting := rfl
@[simp] theorem State.goto_resultValid (q : Seq) : (s.goto q).resultValid = s.resultValid := rfl
@[simp] theorem State.goto_cleanupFailed (q : Seq) : (s.goto q).cleanupFailed = s.cleanupFailed := rfl
@[simp] theorem State.goto_settling (q : Seq) : (s.goto q).settling = s.settling := rfl
@[simp] theorem State.goto_resultWords (q : Seq) : (s.goto q).resultWords = s.resultWords := rfl
@[simp] theorem State.goto_terr (q : Seq) : (s.goto q).terr = s.terr := rfl
@[simp] theorem State.goto_resByte (q : Seq) : (s.goto q).resByte = s.resByte := rfl
@[simp] theorem State.goto_resWord (q : Seq) : (s.goto q).resWord = s.resWord := rfl
@[simp] theorem State.goto_hostOverrun (q : Seq) : (s.goto q).hostOverrun = s.hostOverrun := rfl
@[simp] theorem State.goto_seq (q : Seq) : (s.goto q).seq = q := rfl
@[simp] theorem State.goto_cmdl (q : Seq) : (s.goto q).cmdl = s.cmdl := rfl
@[simp] theorem State.goto_va (q : Seq) : (s.goto q).va = s.va := rfl
@[simp] theorem State.goto_vd (q : Seq) : (s.goto q).vd = s.vd := rfl
@[simp] theorem State.goto_mand (q : Seq) : (s.goto q).mand = s.mand := rfl
@[simp] theorem State.goto_mor (q : Seq) : (s.goto q).mor = s.mor := rfl
@[simp] theorem State.goto_xbuf (q : Seq) : (s.goto q).xbuf = s.xbuf := rfl
@[simp] theorem State.goto_sreg (q : Seq) : (s.goto q).sreg = s.sreg := rfl
@[simp] theorem State.goto_acc (q : Seq) : (s.goto q).acc = s.acc := rfl
@[simp] theorem State.goto_gk (q : Seq) : (s.goto q).gk = s.gk := rfl
@[simp] theorem State.goto_bj (q : Seq) : (s.goto q).bj = s.bj := rfl
@[simp] theorem State.goto_err1 (q : Seq) : (s.goto q).err1 = s.err1 := rfl
@[simp] theorem State.goto_stage (q : Seq) : (s.goto q).stage = s.stage := rfl
@[simp] theorem State.goto_inbox (q : Seq) : (s.goto q).inbox = s.inbox := rfl
@[simp] theorem State.goto_tick (q : Seq) : (s.goto q).tick = s.tick := rfl
@[simp] theorem State.goto_trace (q : Seq) : (s.goto q).trace = s.trace := rfl
@[simp] theorem State.goto_hostRd (q : Seq) : (s.goto q).hostRd = s.hostRd := rfl

/-! startRead -/
@[simp] theorem startRead_lastStatus (k : Nat) (a : VAddr) : (startRead k a s).lastStatus = s.lastStatus := rfl
@[simp] theorem startRead_busy (k : Nat) (a : VAddr) : (startRead k a s).busy = s.busy := rfl
@[simp] theorem startRead_done (k : Nat) (a : VAddr) : (startRead k a s).done = s.done := rfl
@[simp] theorem startRead_initialized (k : Nat) (a : VAddr) : (startRead k a s).initialized = s.initialized := rfl
@[simp] theorem startRead_variant (k : Nat) (a : VAddr) : (startRead k a s).variant = s.variant := rfl
@[simp] theorem startRead_measAwaiting (k : Nat) (a : VAddr) : (startRead k a s).measAwaiting = s.measAwaiting := rfl
@[simp] theorem startRead_resultValid (k : Nat) (a : VAddr) : (startRead k a s).resultValid = s.resultValid := rfl
@[simp] theorem startRead_cleanupFailed (k : Nat) (a : VAddr) : (startRead k a s).cleanupFailed = s.cleanupFailed := rfl
@[simp] theorem startRead_settling (k : Nat) (a : VAddr) : (startRead k a s).settling = s.settling := rfl
@[simp] theorem startRead_resultWords (k : Nat) (a : VAddr) : (startRead k a s).resultWords = s.resultWords := rfl
@[simp] theorem startRead_terr (k : Nat) (a : VAddr) : (startRead k a s).terr = s.terr := rfl
@[simp] theorem startRead_resByte (k : Nat) (a : VAddr) : (startRead k a s).resByte = s.resByte := rfl
@[simp] theorem startRead_resWord (k : Nat) (a : VAddr) : (startRead k a s).resWord = s.resWord := rfl
@[simp] theorem startRead_hostOverrun (k : Nat) (a : VAddr) : (startRead k a s).hostOverrun = s.hostOverrun := rfl
@[simp] theorem startRead_seq (k : Nat) (a : VAddr) : (startRead k a s).seq = .chan k .vread .rChk := rfl
@[simp] theorem startRead_cmdl (k : Nat) (a : VAddr) : (startRead k a s).cmdl = s.cmdl := rfl
@[simp] theorem startRead_va (k : Nat) (a : VAddr) : (startRead k a s).va = a := rfl
@[simp] theorem startRead_vd (k : Nat) (a : VAddr) : (startRead k a s).vd = s.vd := rfl
@[simp] theorem startRead_mand (k : Nat) (a : VAddr) : (startRead k a s).mand = s.mand := rfl
@[simp] theorem startRead_mor (k : Nat) (a : VAddr) : (startRead k a s).mor = s.mor := rfl
@[simp] theorem startRead_xbuf (k : Nat) (a : VAddr) : (startRead k a s).xbuf = s.xbuf := rfl
@[simp] theorem startRead_sreg (k : Nat) (a : VAddr) : (startRead k a s).sreg = s.sreg := rfl
@[simp] theorem startRead_acc (k : Nat) (a : VAddr) : (startRead k a s).acc = s.acc := rfl
@[simp] theorem startRead_gk (k : Nat) (a : VAddr) : (startRead k a s).gk = s.gk := rfl
@[simp] theorem startRead_bj (k : Nat) (a : VAddr) : (startRead k a s).bj = s.bj := rfl
@[simp] theorem startRead_err1 (k : Nat) (a : VAddr) : (startRead k a s).err1 = s.err1 := rfl
@[simp] theorem startRead_stage (k : Nat) (a : VAddr) : (startRead k a s).stage = s.stage := rfl
@[simp] theorem startRead_inbox (k : Nat) (a : VAddr) : (startRead k a s).inbox = s.inbox := rfl
@[simp] theorem startRead_tick (k : Nat) (a : VAddr) : (startRead k a s).tick = s.tick := rfl
@[simp] theorem startRead_trace (k : Nat) (a : VAddr) : (startRead k a s).trace = s.trace := rfl
@[simp] theorem startRead_hostRd (k : Nat) (a : VAddr) : (startRead k a s).hostRd = s.hostRd := rfl

/-! startWrite -/
@[simp] theorem startWrite_lastStatus (k : Nat) (a : VAddr) (v : Byte) : (startWrite k a v s).lastStatus = s.lastStatus := rfl
@[simp] theorem startWrite_busy (k : Nat) (a : VAddr) (v : Byte) : (startWrite k a v s).busy = s.busy := rfl
@[simp] theorem startWrite_done (k : Nat) (a : VAddr) (v : Byte) : (startWrite k a v s).done = s.done := rfl
@[simp] theorem startWrite_initialized (k : Nat) (a : VAddr) (v : Byte) : (startWrite k a v s).initialized = s.initialized := rfl
@[simp] theorem startWrite_variant (k : Nat) (a : VAddr) (v : Byte) : (startWrite k a v s).variant = s.variant := rfl
@[simp] theorem startWrite_measAwaiting (k : Nat) (a : VAddr) (v : Byte) : (startWrite k a v s).measAwaiting = s.measAwaiting := rfl
@[simp] theorem startWrite_resultValid (k : Nat) (a : VAddr) (v : Byte) : (startWrite k a v s).resultValid = s.resultValid := rfl
@[simp] theorem startWrite_cleanupFailed (k : Nat) (a : VAddr) (v : Byte) : (startWrite k a v s).cleanupFailed = s.cleanupFailed := rfl
@[simp] theorem startWrite_settling (k : Nat) (a : VAddr) (v : Byte) : (startWrite k a v s).settling = s.settling := rfl
@[simp] theorem startWrite_resultWords (k : Nat) (a : VAddr) (v : Byte) : (startWrite k a v s).resultWords = s.resultWords := rfl
@[simp] theorem startWrite_terr (k : Nat) (a : VAddr) (v : Byte) : (startWrite k a v s).terr = s.terr := rfl
@[simp] theorem startWrite_resByte (k : Nat) (a : VAddr) (v : Byte) : (startWrite k a v s).resByte = s.resByte := rfl
@[simp] theorem startWrite_resWord (k : Nat) (a : VAddr) (v : Byte) : (startWrite k a v s).resWord = s.resWord := rfl
@[simp] theorem startWrite_hostOverrun (k : Nat) (a : VAddr) (v : Byte) : (startWrite k a v s).hostOverrun = s.hostOverrun := rfl
@[simp] theorem startWrite_seq (k : Nat) (a : VAddr) (v : Byte) : (startWrite k a v s).seq = .chan k .vwrite .wTx1 := rfl
@[simp] theorem startWrite_cmdl (k : Nat) (a : VAddr) (v : Byte) : (startWrite k a v s).cmdl = s.cmdl := rfl
@[simp] theorem startWrite_va (k : Nat) (a : VAddr) (v : Byte) : (startWrite k a v s).va = a := rfl
@[simp] theorem startWrite_vd (k : Nat) (a : VAddr) (v : Byte) : (startWrite k a v s).vd = v := rfl
@[simp] theorem startWrite_mand (k : Nat) (a : VAddr) (v : Byte) : (startWrite k a v s).mand = s.mand := rfl
@[simp] theorem startWrite_mor (k : Nat) (a : VAddr) (v : Byte) : (startWrite k a v s).mor = s.mor := rfl
@[simp] theorem startWrite_xbuf (k : Nat) (a : VAddr) (v : Byte) : (startWrite k a v s).xbuf = s.xbuf := rfl
@[simp] theorem startWrite_sreg (k : Nat) (a : VAddr) (v : Byte) : (startWrite k a v s).sreg = s.sreg := rfl
@[simp] theorem startWrite_acc (k : Nat) (a : VAddr) (v : Byte) : (startWrite k a v s).acc = s.acc := rfl
@[simp] theorem startWrite_gk (k : Nat) (a : VAddr) (v : Byte) : (startWrite k a v s).gk = s.gk := rfl
@[simp] theorem startWrite_bj (k : Nat) (a : VAddr) (v : Byte) : (startWrite k a v s).bj = s.bj := rfl
@[simp] theorem startWrite_err1 (k : Nat) (a : VAddr) (v : Byte) : (startWrite k a v s).err1 = s.err1 := rfl
@[simp] theorem startWrite_stage (k : Nat) (a : VAddr) (v : Byte) : (startWrite k a v s).stage = s.stage := rfl
@[simp] theorem startWrite_inbox (k : Nat) (a : VAddr) (v : Byte) : (startWrite k a v s).inbox = s.inbox := rfl
@[simp] theorem startWrite_tick (k : Nat) (a : VAddr) (v : Byte) : (startWrite k a v s).tick = s.tick := rfl
@[simp] theorem startWrite_trace (k : Nat) (a : VAddr) (v : Byte) : (startWrite k a v s).trace = s.trace := rfl
@[simp] theorem startWrite_hostRd (k : Nat) (a : VAddr) (v : Byte) : (startWrite k a v s).hostRd = s.hostRd := rfl

/-! startModify -/
@[simp] theorem startModify_lastStatus (k : Nat) (a : VAddr) (x y : Byte) : (startModify k a x y s).lastStatus = s.lastStatus := rfl
@[simp] theorem startModify_busy (k : Nat) (a : VAddr) (x y : Byte) : (startModify k a x y s).busy = s.busy := rfl
@[simp] theorem startModify_done (k : Nat) (a : VAddr) (x y : Byte) : (startModify k a x y s).done = s.done := rfl
@[simp] theorem startModify_initialized (k : Nat) (a : VAddr) (x y : Byte) : (startModify k a x y s).initialized = s.initialized := rfl
@[simp] theorem startModify_variant (k : Nat) (a : VAddr) (x y : Byte) : (startModify k a x y s).variant = s.variant := rfl
@[simp] theorem startModify_measAwaiting (k : Nat) (a : VAddr) (x y : Byte) : (startModify k a x y s).measAwaiting = s.measAwaiting := rfl
@[simp] theorem startModify_resultValid (k : Nat) (a : VAddr) (x y : Byte) : (startModify k a x y s).resultValid = s.resultValid := rfl
@[simp] theorem startModify_cleanupFailed (k : Nat) (a : VAddr) (x y : Byte) : (startModify k a x y s).cleanupFailed = s.cleanupFailed := rfl
@[simp] theorem startModify_settling (k : Nat) (a : VAddr) (x y : Byte) : (startModify k a x y s).settling = s.settling := rfl
@[simp] theorem startModify_resultWords (k : Nat) (a : VAddr) (x y : Byte) : (startModify k a x y s).resultWords = s.resultWords := rfl
@[simp] theorem startModify_terr (k : Nat) (a : VAddr) (x y : Byte) : (startModify k a x y s).terr = s.terr := rfl
@[simp] theorem startModify_resByte (k : Nat) (a : VAddr) (x y : Byte) : (startModify k a x y s).resByte = s.resByte := rfl
@[simp] theorem startModify_resWord (k : Nat) (a : VAddr) (x y : Byte) : (startModify k a x y s).resWord = s.resWord := rfl
@[simp] theorem startModify_hostOverrun (k : Nat) (a : VAddr) (x y : Byte) : (startModify k a x y s).hostOverrun = s.hostOverrun := rfl
@[simp] theorem startModify_seq (k : Nat) (a : VAddr) (x y : Byte) : (startModify k a x y s).seq = .chan k .vmodify .rChk := rfl
@[simp] theorem startModify_cmdl (k : Nat) (a : VAddr) (x y : Byte) : (startModify k a x y s).cmdl = s.cmdl := rfl
@[simp] theorem startModify_va (k : Nat) (a : VAddr) (x y : Byte) : (startModify k a x y s).va = a := rfl
@[simp] theorem startModify_vd (k : Nat) (a : VAddr) (x y : Byte) : (startModify k a x y s).vd = s.vd := rfl
@[simp] theorem startModify_mand (k : Nat) (a : VAddr) (x y : Byte) : (startModify k a x y s).mand = x := rfl
@[simp] theorem startModify_mor (k : Nat) (a : VAddr) (x y : Byte) : (startModify k a x y s).mor = y := rfl
@[simp] theorem startModify_xbuf (k : Nat) (a : VAddr) (x y : Byte) : (startModify k a x y s).xbuf = s.xbuf := rfl
@[simp] theorem startModify_sreg (k : Nat) (a : VAddr) (x y : Byte) : (startModify k a x y s).sreg = s.sreg := rfl
@[simp] theorem startModify_acc (k : Nat) (a : VAddr) (x y : Byte) : (startModify k a x y s).acc = s.acc := rfl
@[simp] theorem startModify_gk (k : Nat) (a : VAddr) (x y : Byte) : (startModify k a x y s).gk = s.gk := rfl
@[simp] theorem startModify_bj (k : Nat) (a : VAddr) (x y : Byte) : (startModify k a x y s).bj = s.bj := rfl
@[simp] theorem startModify_err1 (k : Nat) (a : VAddr) (x y : Byte) : (startModify k a x y s).err1 = s.err1 := rfl
@[simp] theorem startModify_stage (k : Nat) (a : VAddr) (x y : Byte) : (startModify k a x y s).stage = s.stage := rfl
@[simp] theorem startModify_inbox (k : Nat) (a : VAddr) (x y : Byte) : (startModify k a x y s).inbox = s.inbox := rfl
@[simp] theorem startModify_tick (k : Nat) (a : VAddr) (x y : Byte) : (startModify k a x y s).tick = s.tick := rfl
@[simp] theorem startModify_trace (k : Nat) (a : VAddr) (x y : Byte) : (startModify k a x y s).trace = s.trace := rfl
@[simp] theorem startModify_hostRd (k : Nat) (a : VAddr) (x y : Byte) : (startModify k a x y s).hostRd = s.hostRd := rfl

/-! modifyWrite -/
@[simp] theorem modifyWrite_lastStatus (k : Nat) : (modifyWrite k s).lastStatus = s.lastStatus := rfl
@[simp] theorem modifyWrite_busy (k : Nat) : (modifyWrite k s).busy = s.busy := rfl
@[simp] theorem modifyWrite_done (k : Nat) : (modifyWrite k s).done = s.done := rfl
@[simp] theorem modifyWrite_initialized (k : Nat) : (modifyWrite k s).initialized = s.initialized := rfl
@[simp] theorem modifyWrite_variant (k : Nat) : (modifyWrite k s).variant = s.variant := rfl
@[simp] theorem modifyWrite_measAwaiting (k : Nat) : (modifyWrite k s).measAwaiting = s.measAwaiting := rfl
@[simp] theorem modifyWrite_resultValid (k : Nat) : (modifyWrite k s).resultValid = s.resultValid := rfl
@[simp] theorem modifyWrite_cleanupFailed (k : Nat) : (modifyWrite k s).cleanupFailed = s.cleanupFailed := rfl
@[simp] theorem modifyWrite_settling (k : Nat) : (modifyWrite k s).settling = s.settling := rfl
@[simp] theorem modifyWrite_resultWords (k : Nat) : (modifyWrite k s).resultWords = s.resultWords := rfl
@[simp] theorem modifyWrite_terr (k : Nat) : (modifyWrite k s).terr = s.terr := rfl
@[simp] theorem modifyWrite_resByte (k : Nat) : (modifyWrite k s).resByte = s.resByte := rfl
@[simp] theorem modifyWrite_resWord (k : Nat) : (modifyWrite k s).resWord = s.resWord := rfl
@[simp] theorem modifyWrite_hostOverrun (k : Nat) : (modifyWrite k s).hostOverrun = s.hostOverrun := rfl
@[simp] theorem modifyWrite_seq (k : Nat) : (modifyWrite k s).seq = .chan k .vmodify .wTx1 := rfl
@[simp] theorem modifyWrite_cmdl (k : Nat) : (modifyWrite k s).cmdl = s.cmdl := rfl
@[simp] theorem modifyWrite_va (k : Nat) : (modifyWrite k s).va = s.va := rfl
@[simp] theorem modifyWrite_vd (k : Nat) : (modifyWrite k s).vd = combine s.vd s.mand s.mor := rfl
@[simp] theorem modifyWrite_mand (k : Nat) : (modifyWrite k s).mand = s.mand := rfl
@[simp] theorem modifyWrite_mor (k : Nat) : (modifyWrite k s).mor = s.mor := rfl
@[simp] theorem modifyWrite_xbuf (k : Nat) : (modifyWrite k s).xbuf = s.xbuf := rfl
@[simp] theorem modifyWrite_sreg (k : Nat) : (modifyWrite k s).sreg = s.sreg := rfl
@[simp] theorem modifyWrite_acc (k : Nat) : (modifyWrite k s).acc = s.acc := rfl
@[simp] theorem modifyWrite_gk (k : Nat) : (modifyWrite k s).gk = s.gk := rfl
@[simp] theorem modifyWrite_bj (k : Nat) : (modifyWrite k s).bj = s.bj := rfl
@[simp] theorem modifyWrite_err1 (k : Nat) : (modifyWrite k s).err1 = s.err1 := rfl
@[simp] theorem modifyWrite_stage (k : Nat) : (modifyWrite k s).stage = s.stage := rfl
@[simp] theorem modifyWrite_inbox (k : Nat) : (modifyWrite k s).inbox = s.inbox := rfl
@[simp] theorem modifyWrite_tick (k : Nat) : (modifyWrite k s).tick = s.tick := rfl
@[simp] theorem modifyWrite_trace (k : Nat) : (modifyWrite k s).trace = s.trace := rfl
@[simp] theorem modifyWrite_hostRd (k : Nat) : (modifyWrite k s).hostRd = s.hostRd := rfl

/-! finish -/
@[simp] theorem finish_lastStatus (st : Status) : (finish st s).lastStatus = st := rfl
@[simp] theorem finish_busy (st : Status) : (finish st s).busy = false := rfl
@[simp] theorem finish_done (st : Status) : (finish st s).done = true := rfl
@[simp] theorem finish_initialized (st : Status) : (finish st s).initialized = s.initialized := rfl
@[simp] theorem finish_variant (st : Status) : (finish st s).variant = s.variant := rfl
@[simp] theorem finish_measAwaiting (st : Status) : (finish st s).measAwaiting = false := rfl
@[simp] theorem finish_resultValid (st : Status) : (finish st s).resultValid = s.resultValid := rfl
@[simp] theorem finish_cleanupFailed (st : Status) : (finish st s).cleanupFailed = s.cleanupFailed := rfl
@[simp] theorem finish_settling (st : Status) : (finish st s).settling = false := rfl
@[simp] theorem finish_resultWords (st : Status) : (finish st s).resultWords = s.resultWords := rfl
@[simp] theorem finish_terr (st : Status) : (finish st s).terr = s.terr := rfl
@[simp] theorem finish_resByte (st : Status) : (finish st s).resByte = s.resByte := rfl
@[simp] theorem finish_resWord (st : Status) : (finish st s).resWord = s.resWord := rfl
@[simp] theorem finish_hostOverrun (st : Status) : (finish st s).hostOverrun = s.hostOverrun := rfl
@[simp] theorem finish_seq (st : Status) : (finish st s).seq = .idle := rfl
@[simp] theorem finish_cmdl (st : Status) : (finish st s).cmdl = s.cmdl := rfl
@[simp] theorem finish_va (st : Status) : (finish st s).va = s.va := rfl
@[simp] theorem finish_vd (st : Status) : (finish st s).vd = s.vd := rfl
@[simp] theorem finish_mand (st : Status) : (finish st s).mand = s.mand := rfl
@[simp] theorem finish_mor (st : Status) : (finish st s).mor = s.mor := rfl
@[simp] theorem finish_xbuf (st : Status) : (finish st s).xbuf = s.xbuf := rfl
@[simp] theorem finish_sreg (st : Status) : (finish st s).sreg = s.sreg := rfl
@[simp] theorem finish_acc (st : Status) : (finish st s).acc = s.acc := rfl
@[simp] theorem finish_gk (st : Status) : (finish st s).gk = s.gk := rfl
@[simp] theorem finish_bj (st : Status) : (finish st s).bj = s.bj := rfl
@[simp] theorem finish_err1 (st : Status) : (finish st s).err1 = s.err1 := rfl
@[simp] theorem finish_stage (st : Status) : (finish st s).stage = s.stage := rfl
@[simp] theorem finish_inbox (st : Status) : (finish st s).inbox = s.inbox := rfl
@[simp] theorem finish_tick (st : Status) : (finish st s).tick = s.tick := rfl
@[simp] theorem finish_trace (st : Status) : (finish st s).trace = s.trace := rfl
@[simp] theorem finish_hostRd (st : Status) : (finish st s).hostRd = s.hostRd := rfl

/-! clearForIssue -/
@[simp] theorem clearForIssue_lastStatus : (clearForIssue s).lastStatus = s.lastStatus := rfl
@[simp] theorem clearForIssue_busy : (clearForIssue s).busy = s.busy := rfl
@[simp] theorem clearForIssue_done : (clearForIssue s).done = false := rfl
@[simp] theorem clearForIssue_initialized : (clearForIssue s).initialized = s.initialized := rfl
@[simp] theorem clearForIssue_variant : (clearForIssue s).variant = s.variant := rfl
@[simp] theorem clearForIssue_measAwaiting : (clearForIssue s).measAwaiting = s.measAwaiting := rfl
@[simp] theorem clearForIssue_resultValid : (clearForIssue s).resultValid = false := rfl
@[simp] theorem clearForIssue_cleanupFailed : (clearForIssue s).cleanupFailed = false := rfl
@[simp] theorem clearForIssue_settling : (clearForIssue s).settling = s.settling := rfl
@[simp] theorem clearForIssue_resultWords : (clearForIssue s).resultWords = false := rfl
@[simp] theorem clearForIssue_terr : (clearForIssue s).terr = s.terr := rfl
@[simp] theorem clearForIssue_resByte : (clearForIssue s).resByte = s.resByte := rfl
@[simp] theorem clearForIssue_resWord : (clearForIssue s).resWord = s.resWord := rfl
@[simp] theorem clearForIssue_hostOverrun : (clearForIssue s).hostOverrun = s.hostOverrun := rfl
@[simp] theorem clearForIssue_seq : (clearForIssue s).seq = s.seq := rfl
@[simp] theorem clearForIssue_cmdl : (clearForIssue s).cmdl = s.cmdl := rfl
@[simp] theorem clearForIssue_va : (clearForIssue s).va = s.va := rfl
@[simp] theorem clearForIssue_vd : (clearForIssue s).vd = s.vd := rfl
@[simp] theorem clearForIssue_mand : (clearForIssue s).mand = s.mand := rfl
@[simp] theorem clearForIssue_mor : (clearForIssue s).mor = s.mor := rfl
@[simp] theorem clearForIssue_xbuf : (clearForIssue s).xbuf = s.xbuf := rfl
@[simp] theorem clearForIssue_sreg : (clearForIssue s).sreg = s.sreg := rfl
@[simp] theorem clearForIssue_acc : (clearForIssue s).acc = s.acc := rfl
@[simp] theorem clearForIssue_gk : (clearForIssue s).gk = s.gk := rfl
@[simp] theorem clearForIssue_bj : (clearForIssue s).bj = s.bj := rfl
@[simp] theorem clearForIssue_err1 : (clearForIssue s).err1 = s.err1 := rfl
@[simp] theorem clearForIssue_stage : (clearForIssue s).stage = s.stage := rfl
@[simp] theorem clearForIssue_inbox : (clearForIssue s).inbox = s.inbox := rfl
@[simp] theorem clearForIssue_tick : (clearForIssue s).tick = s.tick := rfl
@[simp] theorem clearForIssue_trace : (clearForIssue s).trace = s.trace := rfl
@[simp] theorem clearForIssue_hostRd : (clearForIssue s).hostRd = s.hostRd := rfl

/-! refuse -/
@[simp] theorem refuse_lastStatus (st : Status) : (refuse st s).lastStatus = st := rfl
@[simp] theorem refuse_busy (st : Status) : (refuse st s).busy = s.busy := rfl
@[simp] theorem refuse_done (st : Status) : (refuse st s).done = true := rfl
@[simp] theorem refuse_initialized (st : Status) : (refuse st s).initialized = s.initialized := rfl
@[simp] theorem refuse_variant (st : Status) : (refuse st s).variant = s.variant := rfl
@[simp] theorem refuse_measAwaiting (st : Status) : (refuse st s).measAwaiting = s.measAwaiting := rfl
@[simp] theorem refuse_resultValid (st : Status) : (refuse st s).resultValid = s.resultValid := rfl
@[simp] theorem refuse_cleanupFailed (st : Status) : (refuse st s).cleanupFailed = s.cleanupFailed := rfl
@[simp] theorem refuse_settling (st : Status) : (refuse st s).settling = s.settling := rfl
@[simp] theorem refuse_resultWords (st : Status) : (refuse st s).resultWords = s.resultWords := rfl
@[simp] theorem refuse_terr (st : Status) : (refuse st s).terr = s.terr := rfl
@[simp] theorem refuse_resByte (st : Status) : (refuse st s).resByte = s.resByte := rfl
@[simp] theorem refuse_resWord (st : Status) : (refuse st s).resWord = s.resWord := rfl
@[simp] theorem refuse_hostOverrun (st : Status) : (refuse st s).hostOverrun = s.hostOverrun := rfl
@[simp] theorem refuse_seq (st : Status) : (refuse st s).seq = s.seq := rfl
@[simp] theorem refuse_cmdl (st : Status) : (refuse st s).cmdl = s.cmdl := rfl
@[simp] theorem refuse_va (st : Status) : (refuse st s).va = s.va := rfl
@[simp] theorem refuse_vd (st : Status) : (refuse st s).vd = s.vd := rfl
@[simp] theorem refuse_mand (st : Status) : (refuse st s).mand = s.mand := rfl
@[simp] theorem refuse_mor (st : Status) : (refuse st s).mor = s.mor := rfl
@[simp] theorem refuse_xbuf (st : Status) : (refuse st s).xbuf = s.xbuf := rfl
@[simp] theorem refuse_sreg (st : Status) : (refuse st s).sreg = s.sreg := rfl
@[simp] theorem refuse_acc (st : Status) : (refuse st s).acc = s.acc := rfl
@[simp] theorem refuse_gk (st : Status) : (refuse st s).gk = s.gk := rfl
@[simp] theorem refuse_bj (st : Status) : (refuse st s).bj = s.bj := rfl
@[simp] theorem refuse_err1 (st : Status) : (refuse st s).err1 = s.err1 := rfl
@[simp] theorem refuse_stage (st : Status) : (refuse st s).stage = s.stage := rfl
@[simp] theorem refuse_inbox (st : Status) : (refuse st s).inbox = s.inbox := rfl
@[simp] theorem refuse_tick (st : Status) : (refuse st s).tick = s.tick := rfl
@[simp] theorem refuse_trace (st : Status) : (refuse st s).trace = s.trace := rfl
@[simp] theorem refuse_hostRd (st : Status) : (refuse st s).hostRd = s.hostRd := rfl

/-! accept -/
@[simp] theorem accept_lastStatus (i : Instr) : (accept i s).lastStatus = s.lastStatus := rfl
@[simp] theorem accept_busy (i : Instr) : (accept i s).busy = true := rfl
@[simp] theorem accept_done (i : Instr) : (accept i s).done = s.done := rfl
@[simp] theorem accept_initialized (i : Instr) : (accept i s).initialized = s.initialized := rfl
@[simp] theorem accept_variant (i : Instr) : (accept i s).variant = s.variant := rfl
@[simp] theorem accept_measAwaiting (i : Instr) : (accept i s).measAwaiting = s.measAwaiting := rfl
@[simp] theorem accept_resultValid (i : Instr) : (accept i s).resultValid = s.resultValid := rfl
@[simp] theorem accept_cleanupFailed (i : Instr) : (accept i s).cleanupFailed = s.cleanupFailed := rfl
@[simp] theorem accept_settling (i : Instr) : (accept i s).settling = s.settling := rfl
@[simp] theorem accept_resultWords (i : Instr) : (accept i s).resultWords = s.resultWords := rfl
@[simp] theorem accept_terr (i : Instr) : (accept i s).terr = s.terr := rfl
@[simp] theorem accept_resByte (i : Instr) : (accept i s).resByte = s.resByte := rfl
@[simp] theorem accept_resWord (i : Instr) : (accept i s).resWord = s.resWord := rfl
@[simp] theorem accept_hostOverrun (i : Instr) : (accept i s).hostOverrun = s.hostOverrun := rfl
@[simp] theorem accept_seq (i : Instr) : (accept i s).seq = s.seq := rfl
@[simp] theorem accept_cmdl (i : Instr) : (accept i s).cmdl = encode i := rfl
@[simp] theorem accept_va (i : Instr) : (accept i s).va = s.va := rfl
@[simp] theorem accept_vd (i : Instr) : (accept i s).vd = s.vd := rfl
@[simp] theorem accept_mand (i : Instr) : (accept i s).mand = s.mand := rfl
@[simp] theorem accept_mor (i : Instr) : (accept i s).mor = s.mor := rfl
@[simp] theorem accept_xbuf (i : Instr) : (accept i s).xbuf = s.xbuf := rfl
@[simp] theorem accept_sreg (i : Instr) : (accept i s).sreg = s.sreg := rfl
@[simp] theorem accept_acc (i : Instr) : (accept i s).acc = s.acc := rfl
@[simp] theorem accept_gk (i : Instr) : (accept i s).gk = s.gk := rfl
@[simp] theorem accept_bj (i : Instr) : (accept i s).bj = s.bj := rfl
@[simp] theorem accept_err1 (i : Instr) : (accept i s).err1 = s.err1 := rfl
@[simp] theorem accept_stage (i : Instr) : (accept i s).stage = s.stage := rfl
@[simp] theorem accept_inbox (i : Instr) : (accept i s).inbox = s.inbox := rfl
@[simp] theorem accept_tick (i : Instr) : (accept i s).tick = s.tick := rfl
@[simp] theorem accept_trace (i : Instr) : (accept i s).trace = s.trace := rfl
@[simp] theorem accept_hostRd (i : Instr) : (accept i s).hostRd = s.hostRd := rfl

/-! engineReset -/
@[simp] theorem engineReset_lastStatus : (engineReset s).lastStatus = State.reset.lastStatus := rfl
@[simp] theorem engineReset_busy : (engineReset s).busy = State.reset.busy := rfl
@[simp] theorem engineReset_done : (engineReset s).done = State.reset.done := rfl
@[simp] theorem engineReset_initialized : (engineReset s).initialized = State.reset.initialized := rfl
@[simp] theorem engineReset_variant : (engineReset s).variant = State.reset.variant := rfl
@[simp] theorem engineReset_measAwaiting : (engineReset s).measAwaiting = State.reset.measAwaiting := rfl
@[simp] theorem engineReset_resultValid : (engineReset s).resultValid = State.reset.resultValid := rfl
@[simp] theorem engineReset_cleanupFailed : (engineReset s).cleanupFailed = State.reset.cleanupFailed := rfl
@[simp] theorem engineReset_settling : (engineReset s).settling = State.reset.settling := rfl
@[simp] theorem engineReset_resultWords : (engineReset s).resultWords = State.reset.resultWords := rfl
@[simp] theorem engineReset_terr : (engineReset s).terr = State.reset.terr := rfl
@[simp] theorem engineReset_resByte : (engineReset s).resByte = State.reset.resByte := rfl
@[simp] theorem engineReset_resWord : (engineReset s).resWord = State.reset.resWord := rfl
@[simp] theorem engineReset_hostOverrun : (engineReset s).hostOverrun = State.reset.hostOverrun := rfl
@[simp] theorem engineReset_seq : (engineReset s).seq = State.reset.seq := rfl
@[simp] theorem engineReset_cmdl : (engineReset s).cmdl = State.reset.cmdl := rfl
@[simp] theorem engineReset_va : (engineReset s).va = State.reset.va := rfl
@[simp] theorem engineReset_vd : (engineReset s).vd = State.reset.vd := rfl
@[simp] theorem engineReset_mand : (engineReset s).mand = State.reset.mand := rfl
@[simp] theorem engineReset_mor : (engineReset s).mor = State.reset.mor := rfl
@[simp] theorem engineReset_xbuf : (engineReset s).xbuf = State.reset.xbuf := rfl
@[simp] theorem engineReset_sreg : (engineReset s).sreg = State.reset.sreg := rfl
@[simp] theorem engineReset_acc : (engineReset s).acc = State.reset.acc := rfl
@[simp] theorem engineReset_gk : (engineReset s).gk = State.reset.gk := rfl
@[simp] theorem engineReset_bj : (engineReset s).bj = State.reset.bj := rfl
@[simp] theorem engineReset_err1 : (engineReset s).err1 = State.reset.err1 := rfl
@[simp] theorem engineReset_stage : (engineReset s).stage = State.reset.stage := rfl
@[simp] theorem engineReset_inbox : (engineReset s).inbox = s.inbox := rfl
@[simp] theorem engineReset_tick : (engineReset s).tick = s.tick := rfl
@[simp] theorem engineReset_trace : (engineReset s).trace = State.reset.trace := rfl
@[simp] theorem engineReset_hostRd : (engineReset s).hostRd = State.reset.hostRd := rfl

/-! The composite finishes are `finish` after a write of the result registers or TERR. -/
@[simp] theorem finishOk_eq : finishOk s = finish .ok s := rfl
@[simp] theorem finishByte_eq (b : Byte) :
    finishByte b s = finish .ok { s with resByte := b, resultValid := true, resultWords := false } := rfl
@[simp] theorem finishWords_eq (ws : Vector Word 6) :
    finishWords ws s = finish .ok { s with resWord := ws, resultValid := true, resultWords := true } := rfl
@[simp] theorem finishFail_transport (e : TErr) :
    finishFail (.transport e) s = finish .transportError { s with terr := e.setWidth 32 } := rfl
@[simp] theorem finishFail_aborted : finishFail .aborted s = finish .aborted s := rfl

end Sys2Proof.Machine
end

