-- ==== Sys2Proof/Laws/Ops.lean ====
section
/-! SUPPORT. What each shared operation can do, once: taking an event, one step of a rule, issue, the turn of a step. -/
namespace Sys2Proof.Machine

/-! ## Events -/

/-- The scripted event is the step's event. -/
theorem State.peek_cons {s : State} {e : Event} {rest : List Event} (h : s.inbox = e :: rest) : s.peek = e := by
  simp [State.peek, h]

/-- A transaction that returned normally touches VD, XBUF, SREG and the trace alone. -/
theorem State.transact_frame (s : State) (b : Byte) (ph : Phase) :
    s.transact b ph = { s with
      vd := (s.transact b ph).vd, xbuf := (s.transact b ph).xbuf
      sreg := (s.transact b ph).sreg, trace := (s.transact b ph).trace } := by
  cases ph <;> rfl

/-! ## The gate and the rule of each command -/

/-- The gating of a command (R273). -/
def gateOf : Instr → State → Option Status
  | .init _ _ _ => gateInit
  | .read _ | .write _ _ | .modify _ _ _ | .setMode _ | .setGain _ | .setItime _ | .setBulbCur _ | .setBulb _
  | .setIndCur _ | .setInd _ | .softReset | .getName | .getWavelengths | .takeMeas | .takeMeasIllum | .readCal
  | .readTemp => gateControl

/-- The rule of a command. -/
def ruleOf : Instr → Rule
  | .read a => { start := startRead 0 a, after := fun _ s => finishByte s.vd s }
  | .write a v => .single (startWrite 0 a v)
  | .modify a mAnd mOr => .single (startModify 0 a mAnd mOr)
  | .init mode gain itime => initRule Config.probeAddr mode gain itime
  | .setMode mode => .single (startModify 0 Config.vControlSetup mAndMode (mOrMode mode))
  | .setGain gain => .single (startModify 0 Config.vControlSetup mAndGain (mOrGain gain))
  | .setItime itime => .single (startWrite 0 Config.vIntTime itime)
  | .setBulbCur level => .single (startModify 0 Config.vLedControl mAndBulbCur (mOrBulbCur level))
  | .setBulb on => .single (startModify 0 Config.vLedControl mAndBulb (mOrBulb on))
  | .setIndCur level => .single (startModify 0 Config.vLedControl mAndIndCur (mOrIndCur level))
  | .setInd on => .single (startModify 0 Config.vLedControl mAndInd (mOrInd on))
  | .softReset =>
    { start := startModify 0 Config.vControlSetup mAndRst mOrRst
      after := fun _ s => { s with settling := true, seq := .settle }
      settled := fun s => finishOk { s with settling := false } }
  | .getName =>
    { start := fun s => s.goto .lookup, after := fun _ s => s
      look := fun s => finishByte ((variantCode s.variant).setWidth 8) s }
  | .getWavelengths =>
    { start := fun s => s.goto .lookup, after := fun _ s => s
      look := fun s => finishWords (wavelengthWords s.variant) s }
  | .takeMeas => { start := measureStart 0, after := measureAfter 0 finishOk, wake := measurePoll }
  | .takeMeasIllum =>
    { start := fun s => startModify 0 Config.vLedControl mAndBulb (mOrBulb 1) { s with err1 := none }
      after := illumAfter, fail := illumFail, wake := measurePoll }
  | .readCal => { start := calRead 0 0, after := fun _ s => calAfter s }
  | .readTemp => { start := startRead 0 Config.vDeviceTemp, after := fun _ s => finishByte s.vd s }

/-- Every meaning is one step of its rule under its gating. -/
theorem exec_eq (i : Instr) (s : State) :
    exec i s = .next (if s.busy then advance (ruleOf i) s else issue (gateOf i) i (ruleOf i) s) := by
  cases i <;> rfl

/-- A meaning always answers a next state. -/
theorem exec_answers (i : Instr) (s : State) : ∃ t, exec i s = .next t := ⟨_, exec_eq i s⟩

theorem exec_busy {i : Instr} {s : State} (h : s.busy = true) : exec i s = .next (advance (ruleOf i) s) := by
  simp [exec_eq, h]

theorem exec_idle {i : Instr} {s : State} (h : s.busy = false) :
    exec i s = .next (issue (gateOf i) i (ruleOf i) s) := by
  simp [exec_eq, h]

@[simp] theorem initRule_start (probe : VAddr) (mode gain : BitVec 2) (itime : Byte) :
    (initRule probe mode gain itime).start = startRead 0 probe := rfl
@[simp] theorem initRule_after (probe : VAddr) (mode gain : BitVec 2) (itime : Byte) :
    (initRule probe mode gain itime).after = initAfter mode gain itime := rfl
@[simp] theorem initRule_fail (probe : VAddr) (mode gain : BitVec 2) (itime : Byte) :
    (initRule probe mode gain itime).fail = fun _ f s => finishFail f s := rfl
@[simp] theorem initRule_wake (probe : VAddr) (mode gain : BitVec 2) (itime : Byte) :
    (initRule probe mode gain itime).wake = fun _ s => s := rfl
@[simp] theorem initRule_settled (probe : VAddr) (mode gain : BitVec 2) (itime : Byte) :
    (initRule probe mode gain itime).settled = fun s => s := rfl
@[simp] theorem initRule_look (probe : VAddr) (mode gain : BitVec 2) (itime : Byte) :
    (initRule probe mode gain itime).look = fun s => s := rfl

/-- Every command but TAKE_MEAS_ILLUM ends at its first failure (R271). -/
theorem ruleOf_fail {i : Instr} (h : i ≠ .takeMeasIllum) : (ruleOf i).fail = fun _ f s => finishFail f s := by
  cases i <;> first | rfl | exact absurd rfl h

/-- What follows a VRead of READ_CAL: the next byte of the group, the next group, or the finish (R250). -/
theorem calAfter_cases (s : State) :
    (s.bj.toNat < 3 ∧ calAfter s = calRead s.gk (s.bj + 1) { s with acc := accumulate s.acc s.vd }) ∨
    (3 ≤ s.bj.toNat ∧ s.gk.toNat < 5 ∧ calAfter s = calRead (s.gk + 1) 0 { s with
      acc := accumulate s.acc s.vd
      stage := s.stage.setIfInBounds s.gk.toNat (accumulate s.acc s.vd) }) ∨
    (3 ≤ s.bj.toNat ∧ 5 ≤ s.gk.toNat ∧
      calAfter s = finishWords (s.stage.setIfInBounds s.gk.toNat (accumulate s.acc s.vd)) { s with
        acc := accumulate s.acc s.vd
        stage := s.stage.setIfInBounds s.gk.toNat (accumulate s.acc s.vd) }) := by
  have stride : Config.calStride.toNat = 4 := rfl
  have count : Config.calCount = 6 := rfl
  unfold calAfter
  by_cases hb : s.bj.toNat < 3
  · exact .inl ⟨hb, if_pos (by omega)⟩
  · by_cases hg : s.gk.toNat < 5
    · exact .inr (.inl ⟨by omega, hg, (if_neg (by omega)).trans (if_pos (by omega))⟩)
    · exact .inr (.inr ⟨by omega, by omega, (if_neg (by omega)).trans (if_neg (by omega))⟩)

/-! ## One step of a rule -/

/-- What a sleep can do: wait, end, or be aborted. -/
theorem sleepStep_cases (wake abort : State → State) (s : State) :
    sleepStep wake abort s = s.pop ∨
    (s.peek = .timer ∧ sleepStep wake abort s = wake (s.pop.log .sleep)) ∨
    (s.peek = .abort ∧ sleepStep wake abort s = abort (s.pop.log .sleepAborted)) := by
  unfold sleepStep
  cases h : s.peek <;> simp

/-- What a transaction in flight can do: wait, return normally, or return an error. -/
theorem xferStep_cases (r : Rule) (k : Nat) (op : OpKind) (ph : Phase) (s : State) :
    xferStep r k op ph s = s.pop ∨
    (∃ b, s.peek = .transport (.ok b) ∧ xferStep r k op ph s = afterPhase r k op ph b (s.pop.transact b ph)) ∨
    (∃ e, s.peek = .transport (.error e) ∧
      xferStep r k op ph s = r.fail k (.transport e) (s.pop.log (.error e))) := by
  unfold xferStep
  cases h : s.peek with
  | transport a => cases a <;> simp
  | _ => simp

/-- What the settle wait can do: wait, or end at the timer's event. -/
theorem settleStep_cases (settled : State → State) (s : State) :
    settleStep settled s = s.pop ∨ (s.peek = .timer ∧ settleStep settled s = settled (s.pop.log .settle)) := by
  unfold settleStep
  cases h : s.peek <;> simp

/-- What can follow a phase that returned normally: the next phase, VModify's write, or the rest of the rule. -/
theorem afterPhase_cases (r : Rule) (k : Nat) (op : OpKind) (ph : Phase) (b : Byte) (s : State) :
    (∃ ph', ph.next b = some ph' ∧ afterPhase r k op ph b s = s.goto (.chan k op ph')) ∨
    (op = .vmodify ∧ ph = .rResp ∧ afterPhase r k op ph b s = modifyWrite k s) ∨
    (ph.next b = none ∧ ¬(op = .vmodify ∧ ph = .rResp) ∧ afterPhase r k op ph b s = r.after k s) := by
  unfold afterPhase
  cases h : ph.next b with
  | some ph' => exact .inl ⟨ph', rfl, rfl⟩
  | none =>
    by_cases c : op = .vmodify ∧ ph = .rResp
    · exact .inr (.inl ⟨c.1, c.2, by simp [c]⟩)
    · exact .inr (.inr ⟨rfl, c, by simp [c]⟩)

/-- Everything one step of a running command can do. -/
theorem advance_cases (r : Rule) (s : State) :
    advance r s = s.pop ∨
    (∃ k op ph b, s.seq = .chan k op ph ∧ ph.isSleep = false ∧ s.peek = .transport (.ok b) ∧
      advance r s = afterPhase r k op ph b (s.pop.transact b ph)) ∨
    (∃ k op ph e, s.seq = .chan k op ph ∧ ph.isSleep = false ∧ s.peek = .transport (.error e) ∧
      advance r s = r.fail k (.transport e) (s.pop.log (.error e))) ∨
    (∃ k op ph, s.seq = .chan k op ph ∧ ph.isSleep = true ∧ s.peek = .timer ∧
      advance r s = afterPhase r k op ph 0 (s.pop.log .sleep)) ∨
    (∃ k op ph, s.seq = .chan k op ph ∧ ph.isSleep = true ∧ s.peek = .abort ∧
      advance r s = r.fail k .aborted (s.pop.log .sleepAborted)) ∨
    (∃ k, s.seq = .daSleep k ∧ s.peek = .timer ∧ advance r s = r.wake k (s.pop.log .sleep)) ∨
    (∃ k, s.seq = .daSleep k ∧ s.peek = .abort ∧ advance r s = r.fail k .aborted (s.pop.log .sleepAborted)) ∨
    (s.seq = .settle ∧ s.peek = .timer ∧ advance r s = r.settled (s.pop.log .settle)) ∨
    (s.seq = .lookup ∧ advance r s = r.look s.pop) := by
  unfold advance
  cases h : s.seq with
  | idle => exact .inl rfl
  | chan k op ph =>
    cases hs : ph.isSleep with
    | true =>
      rcases sleepStep_cases (afterPhase r k op ph 0) (r.fail k .aborted) s with h | ⟨hp, h⟩ | ⟨hp, h⟩
      · exact .inl (by simpa [hs] using h)
      · exact .inr (.inr (.inr (.inl ⟨k, op, ph, rfl, hs, hp, by simpa [hs] using h⟩)))
      · exact .inr (.inr (.inr (.inr (.inl ⟨k, op, ph, rfl, hs, hp, by simpa [hs] using h⟩))))
    | false =>
      rcases xferStep_cases r k op ph s with h | ⟨b, hp, h⟩ | ⟨e, hp, h⟩
      · exact .inl (by simpa [hs] using h)
      · exact .inr (.inl ⟨k, op, ph, b, rfl, hs, hp, by simpa [hs] using h⟩)
      · exact .inr (.inr (.inl ⟨k, op, ph, e, rfl, hs, hp, by simpa [hs] using h⟩))
  | daSleep k =>
    rcases sleepStep_cases (r.wake k) (r.fail k .aborted) s with h | ⟨hp, h⟩ | ⟨hp, h⟩
    · exact .inl h
    · exact .inr (.inr (.inr (.inr (.inr (.inl ⟨k, rfl, hp, h⟩)))))
    · exact .inr (.inr (.inr (.inr (.inr (.inr (.inl ⟨k, rfl, hp, h⟩))))))
  | settle =>
    rcases settleStep_cases r.settled s with h | ⟨hp, h⟩
    · exact .inl h
    · exact .inr (.inr (.inr (.inr (.inr (.inr (.inr (.inl ⟨rfl, hp, h⟩)))))))
  | lookup => exact .inr (.inr (.inr (.inr (.inr (.inr (.inr (.inr ⟨rfl, rfl⟩)))))))

/-- What issue can do: refuse, or accept and start the rule. -/
theorem issue_cases (gate : State → Option Status) (i : Instr) (r : Rule) (s : State) :
    (∃ st, gate s = some st ∧ issue gate i r s = refuse st (clearForIssue s.pop)) ∨
    (gate s = none ∧ issue gate i r s = r.start (accept i (clearForIssue s.pop))) := by
  unfold issue
  cases h : gate s <;> simp

/-- To show something of the state one step of a running command leaves, show it of each thing the step can do. -/
theorem advance_elim {P : State → Prop} (r : Rule) (s : State)
    (wait : P s.pop)
    (next : ∀ k op ph b ph', s.seq = .chan k op ph → ph.isSleep = false → s.peek = .transport (.ok b) →
      ph.next b = some ph' → P ((s.pop.transact b ph).goto (.chan k op ph')))
    (modifyRead : ∀ k b, s.seq = .chan k .vmodify .rResp → s.peek = .transport (.ok b) →
      P (modifyWrite k (s.pop.gotResponse b)))
    (response : ∀ k op b, s.seq = .chan k op .rResp → op ≠ .vmodify → s.peek = .transport (.ok b) →
      P (r.after k (s.pop.gotResponse b)))
    (written : ∀ k op b, s.seq = .chan k op .wData → s.peek = .transport (.ok b) → P (r.after k (s.pop.wrote s.vd)))
    (error : ∀ k op ph e, s.seq = .chan k op ph → ph.isSleep = false → s.peek = .transport (.error e) →
      P (r.fail k (.transport e) (s.pop.log (.error e))))
    (slept : ∀ k op ph ph', s.seq = .chan k op ph → ph.isSleep = true → s.peek = .timer → ph.next 0 = some ph' →
      P ((s.pop.log .sleep).goto (.chan k op ph')))
    (aborted : ∀ k op ph, s.seq = .chan k op ph → ph.isSleep = true → s.peek = .abort →
      P (r.fail k .aborted (s.pop.log .sleepAborted)))
    (woken : ∀ k, s.seq = .daSleep k → s.peek = .timer → P (r.wake k (s.pop.log .sleep)))
    (awaitAborted : ∀ k, s.seq = .daSleep k → s.peek = .abort → P (r.fail k .aborted (s.pop.log .sleepAborted)))
    (settled : s.seq = .settle → s.peek = .timer → P (r.settled (s.pop.log .settle)))
    (look : s.seq = .lookup → P (r.look s.pop)) : P (advance r s) := by
  rcases advance_cases r s with h | ⟨k, op, ph, b, hq, hs, hp, h⟩ | ⟨k, op, ph, e, hq, hs, hp, h⟩ |
    ⟨k, op, ph, hq, hs, hp, h⟩ | ⟨k, op, ph, hq, hs, hp, h⟩ | ⟨k, hq, hp, h⟩ | ⟨k, hq, hp, h⟩ | ⟨hq, hp, h⟩ | ⟨hq, h⟩
  · exact h ▸ wait
  · rcases afterPhase_cases r k op ph b (s.pop.transact b ph) with ⟨ph', hn, g⟩ | ⟨rfl, rfl, g⟩ | ⟨hn, hm, g⟩
    · exact h ▸ g ▸ next k op ph b ph' hq hs hp hn
    · exact h ▸ g ▸ modifyRead k b hq hp
    · rw [h, g]
      cases ph <;> simp [Phase.next] at hn
      · exact response k op b hq (fun c => hm ⟨c, rfl⟩) hp
      · exact written k op b hq hp
  · exact h ▸ error k op ph e hq hs hp
  · rw [h]
    cases ph <;> simp [Phase.isSleep] at hs <;> exact slept k op _ _ hq rfl hp rfl
  · exact h ▸ aborted k op ph hq hs hp
  · exact h ▸ woken k hq hp
  · exact h ▸ awaitAborted k hq hp
  · exact h ▸ settled hq hp
  · exact h ▸ look hq

/-! ## The turn of a step -/

/-- Everything one step of the machine that answers a next state can do. -/
theorem step_cases {s t : State} (h : step s = .next t) :
    (∃ i, s.busy = true ∧ decode s.cmdl = .ok i ∧ s.peek ≠ .reset ∧ (∀ off w, s.peek ≠ .hostWrite off w) ∧
      t = advance (ruleOf i) s) ∨
    (∃ i w, s.busy = false ∧ s.peek = .hostWrite Config.hCmd w ∧ decode w = .ok i ∧
      t = issue (gateOf i) i (ruleOf i) s) ∨
    (∃ e w, s.busy = false ∧ s.peek = .hostWrite Config.hCmd w ∧ decode w = .error e ∧
      t = refuse (decodeStatus e) (clearForIssue s.pop)) ∨
    (∃ w, s.busy = true ∧ s.peek = .hostWrite Config.hCmd w ∧ t = overrun s.pop) ∨
    (∃ off w, s.peek = .hostRead off ∧ hostRegister s off = .ok w ∧ t = { s.pop with hostRd := w }) ∨
    (s.peek = .reset ∧ t = engineReset s.pop) ∨
    (s.peek ≠ .reset ∧ (∀ w, s.peek ≠ .hostWrite Config.hCmd w) ∧ t = s.pop) := by
  have own : ∀ {t}, (match engineTurn s with | .run i => exec i s | .act o => o) = .next t →
      (∃ i, s.busy = true ∧ decode s.cmdl = .ok i ∧ t = advance (ruleOf i) s) ∨ t = s.pop := by
    intro t ht
    unfold engineTurn at ht
    cases hb : s.busy with
    | false => simp [hb] at ht; exact .inr ht.symm
    | true =>
      cases hd : decode s.cmdl with
      | error e => simp [hb, hd] at ht; exact .inr ht.symm
      | ok i => simp [hb, hd, exec_busy hb] at ht; exact .inl ⟨i, rfl, rfl, ht.symm⟩
  unfold step turn at h
  cases hp : s.peek with
  | hostWrite off w =>
    simp only [hp, hostWriteTurn] at h
    by_cases ho : off = Config.hCmd
    · subst ho
      cases hb : s.busy with
      | true =>
        simp [hb] at h
        exact .inr (.inr (.inr (.inl ⟨w, rfl, rfl, h.symm⟩)))
      | false =>
        cases hd : decode w with
        | ok i =>
          simp [hb, hd, exec_idle hb] at h
          exact .inr (.inl ⟨i, w, rfl, rfl, hd, h.symm⟩)
        | error e =>
          simp [hb, hd] at h
          exact .inr (.inr (.inl ⟨e, w, rfl, rfl, hd, h.symm⟩))
    · simp [ho] at h
      exact .inr (.inr (.inr (.inr (.inr (.inr ⟨by simp, by simp [ho], h.symm⟩)))))
  | hostRead off =>
    simp only [hp, hostRead] at h
    cases hr : hostRegister s off with
    | ok w => simp [hr] at h; exact .inr (.inr (.inr (.inr (.inl ⟨off, w, rfl, hr, h.symm⟩))))
    | error f => simp [hr] at h
  | reset =>
    simp only [hp] at h
    exact .inr (.inr (.inr (.inr (.inr (.inl ⟨rfl, by simpa using h.symm⟩)))))
  | _ =>
    simp only [hp] at h
    rcases own h with ⟨i, hb, hd, ht⟩ | ht
    · exact .inl ⟨i, hb, hd, by simp, by simp, ht⟩
    · exact .inr (.inr (.inr (.inr (.inr (.inr ⟨by simp, by simp, ht⟩)))))

end Sys2Proof.Machine
end

