-- ==== Sys2Proof/Laws/PerInstr.lean ====
section
/-! SUPPORT. Per command: it is well-formed, and its encoding has its row's OP, a zero RSV and zeros in every
must-be-zero bit of the row (30_encoding R110, R112, R120). -/
namespace Sys2Proof.Laws.EncodeMatchesRow

/-- What holds of every command as syntax. -/
def Statement (i : Instr) : Prop :=
  i.WellFormed ∧ fieldOp (encode i) = i.op.code ∧ fieldRsv (encode i) = 0 ∧ encode i &&& i.op.mask = i.op.matchWord

theorem read (a : VAddr) : Statement (.read a) := by
  refine ⟨?_, fieldOp_wordOf .., fieldRsv_wordOf .., ?_⟩
  · simp only [Instr.WellFormed, Instr.asm, Asm.wellFormed, fits, decide_eq_true_eq]; omega
  · refine (wordOf_and _ 31#5 15#4 _ (0#7) _ (255#8) _ (255#8)).trans ?_
    simp [Instr.op, Op.code, Op.matchWord]

theorem write (a : VAddr) (v : Byte) : Statement (.write a v) := by
  refine ⟨?_, fieldOp_wordOf .., fieldRsv_wordOf .., ?_⟩
  · simp only [Instr.WellFormed, Instr.asm, Asm.wellFormed, fits, Bool.and_eq_true, decide_eq_true_eq]; omega
  · refine (wordOf_and _ 31#5 15#4 _ (0#7) _ (255#8) _ (0#8)).trans ?_
    simp [Instr.op, Op.code, Op.matchWord]

theorem modify (a : VAddr) (mAnd mOr : Byte) : Statement (.modify a mAnd mOr) := by
  refine ⟨?_, fieldOp_wordOf .., fieldRsv_wordOf .., ?_⟩
  · simp only [Instr.WellFormed, Instr.asm, Asm.wellFormed, fits, Bool.and_eq_true, decide_eq_true_eq]; omega
  · refine (wordOf_and _ 31#5 15#4 _ (0#7) _ (0#8) _ (0#8)).trans ?_
    simp [Instr.op, Op.code, Op.matchWord]

theorem init (mode gain : BitVec 2) (itime : Byte) : Statement (.init mode gain itime) := by
  refine ⟨?_, fieldOp_wordOf .., fieldRsv_wordOf .., ?_⟩
  · simp only [Instr.WellFormed, Instr.asm, Asm.wellFormed, fits, Bool.and_eq_true, decide_eq_true_eq]; omega
  · refine (wordOf_and _ 31#5 15#4 _ (127#7) _ (0#8) _ (240#8)).trans ?_
    have h : ((0#4 ++ gain ++ mode : Byte) &&& 240#8) = 0 := by revert gain mode; decide
    rw [h]; simp [Instr.op, Op.code, Op.matchWord]

theorem setMode (mode : BitVec 2) : Statement (.setMode mode) := by
  revert mode; unfold Statement; decide

theorem setGain (gain : BitVec 2) : Statement (.setGain gain) := by
  revert gain; unfold Statement; decide

theorem setItime (itime : Byte) : Statement (.setItime itime) := by
  refine ⟨?_, fieldOp_wordOf .., fieldRsv_wordOf .., ?_⟩
  · simp only [Instr.WellFormed, Instr.asm, Asm.wellFormed, fits, decide_eq_true_eq]; omega
  · refine (wordOf_and _ 31#5 15#4 _ (127#7) _ (255#8) _ (0#8)).trans ?_
    simp [Instr.op, Op.code, Op.matchWord]

theorem setBulbCur (level : BitVec 2) : Statement (.setBulbCur level) := by
  revert level; unfold Statement; decide

theorem setBulb (on : BitVec 1) : Statement (.setBulb on) := by
  revert on; unfold Statement; decide

theorem setIndCur (level : BitVec 2) : Statement (.setIndCur level) := by
  revert level; unfold Statement; decide

theorem setInd (on : BitVec 1) : Statement (.setInd on) := by
  revert on; unfold Statement; decide

theorem softReset : Statement .softReset := by
  unfold Statement; decide

theorem getName : Statement .getName := by
  unfold Statement; decide

theorem getWavelengths : Statement .getWavelengths := by
  unfold Statement; decide

theorem takeMeas : Statement .takeMeas := by
  unfold Statement; decide

theorem takeMeasIllum : Statement .takeMeasIllum := by
  unfold Statement; decide

theorem readCal : Statement .readCal := by
  unfold Statement; decide

theorem readTemp : Statement .readTemp := by
  unfold Statement; decide

end Sys2Proof.Laws.EncodeMatchesRow
end

