-- ==== Sys2Proof/Laws/Runs.lean ====
section
/-! SUPPORT. Runs of a command put end to end, and the byte laws whole-command runs need. -/
namespace Sys2Proof.Machine

@[simp] theorem execRun_zero (i : Instr) (s : State) : execRun i 0 s = .next s := rfl

/-- A run goes on from where its first step left it. -/
theorem execRun_succ {i : Instr} {s t : State} (n : Nat) (h : exec i s = .next t) :
    execRun i (n + 1) s = execRun i n t := by
  simp [execRun, h]

/-- Two runs end to end. -/
theorem execRun_add {i : Instr} {s t : State} (m n : Nat) (h : execRun i m s = .next t) :
    execRun i (m + n) s = execRun i n t := by
  induction m generalizing s with
  | zero => simp at h; simp [h]
  | succ m ih =>
    obtain ⟨u, hu⟩ := exec_answers i s
    rw [execRun_succ m hu] at h
    rw [Nat.succ_add, execRun_succ _ hu, ih h]

/-! ## The trace and the end of a run (R300) -/

/-- What a command's rule does between its steps adds nothing to the trace, and ends the command with DONE or leaves it
running. -/
def Quiet (f : State → State) : Prop :=
  ∀ s, (f s).trace = s.trace ∧ (s.busy = true → (f s).busy = true ∨ (f s).done = true)

theorem finish_quiet (st : Status) : Quiet (finish st) := fun _ => ⟨rfl, fun _ => .inr rfl⟩

theorem finishFail_quiet (f : Failure) : Quiet (finishFail f) := by
  intro s
  cases f <;> exact ⟨rfl, fun _ => .inr rfl⟩

theorem illumEnd_quiet : Quiet illumEnd := by
  intro s
  unfold illumEnd
  split
  · exact finish_quiet _ s
  · exact finishFail_quiet _ s

theorem initAfter_quiet (mode gain : BitVec 2) (itime : Byte) (k : Nat) : Quiet (initAfter mode gain itime k) := by
  intro s
  unfold initAfter
  repeat' split
  all_goals first | exact ⟨rfl, .inl⟩ | exact ⟨rfl, fun _ => .inr rfl⟩

theorem measureAfter_quiet {exit : State → State} (base : Nat) (h : Quiet exit) (k : Nat) :
    Quiet (measureAfter base exit k) := by
  intro s
  unfold measureAfter
  repeat' split
  all_goals first | exact h _ | exact ⟨rfl, .inl⟩

theorem calAfter_quiet : Quiet calAfter := by
  intro s
  rcases calAfter_cases s with ⟨_, h⟩ | ⟨_, _, h⟩ | ⟨_, _, h⟩ <;> rw [h]
  · exact ⟨rfl, .inl⟩
  · exact ⟨rfl, .inl⟩
  · exact ⟨rfl, fun _ => .inr rfl⟩

theorem illumAfter_quiet (k : Nat) : Quiet (illumAfter k) := by
  intro s
  unfold illumAfter
  repeat' split
  · exact ⟨rfl, .inl⟩
  · exact measureAfter_quiet 1 (exit := illumCleanup) (fun _ => ⟨rfl, .inl⟩) k s
  · exact illumEnd_quiet s

theorem illumFail_quiet (k : Nat) (f : Failure) : Quiet (illumFail k f) := by
  intro s
  unfold illumFail
  split
  · exact ⟨rfl, .inl⟩
  · exact illumEnd_quiet { s with cleanupFailed := true, err1 := some (s.err1.getD f) }

theorem ruleOf_start_quiet (i : Instr) : Quiet (ruleOf i).start := by
  intro s
  cases i <;> exact ⟨rfl, .inl⟩

theorem ruleOf_after_quiet (i : Instr) (k : Nat) : Quiet ((ruleOf i).after k) := by
  intro s
  cases i with
  | init mode gain itime => exact initAfter_quiet mode gain itime k s
  | takeMeas => exact measureAfter_quiet 0 (finish_quiet .ok) k s
  | takeMeasIllum => exact illumAfter_quiet k s
  | readCal => exact calAfter_quiet s
  | _ => first | exact ⟨rfl, .inl⟩ | exact ⟨rfl, fun _ => .inr rfl⟩

theorem ruleOf_fail_quiet (i : Instr) (k : Nat) (f : Failure) : Quiet ((ruleOf i).fail k f) := by
  by_cases h : i = .takeMeasIllum
  · subst h
    exact illumFail_quiet k f
  · rw [ruleOf_fail h]
    exact finishFail_quiet f

theorem ruleOf_wake_quiet (i : Instr) (k : Nat) : Quiet ((ruleOf i).wake k) := by
  intro s
  cases i <;> exact ⟨rfl, .inl⟩

theorem ruleOf_settled_quiet (i : Instr) : Quiet (ruleOf i).settled := by
  intro s
  cases i <;> first | exact ⟨rfl, .inl⟩ | exact ⟨rfl, fun _ => .inr rfl⟩

theorem ruleOf_look_quiet (i : Instr) : Quiet (ruleOf i).look := by
  intro s
  cases i <;> first | exact ⟨rfl, .inl⟩ | exact ⟨rfl, fun _ => .inr rfl⟩

/-- The trace of `t` is that of `s` and what came after. -/
abbrev Grows (s t : State) : Prop := s.trace <:+ t.trace

/-- One step of a command adds to the trace at its end, and ends the command with DONE or leaves it running. -/
theorem advance_grows (i : Instr) {s : State} (hb : s.busy = true) :
    Grows s (advance (ruleOf i) s) ∧ ((advance (ruleOf i) s).busy = true ∨ (advance (ruleOf i) s).done = true) := by
  have via : ∀ {f : State → State} {u : State}, Quiet f → Grows s u → u.busy = true →
      Grows s (f u) ∧ ((f u).busy = true ∨ (f u).done = true) :=
    fun {f u} hf g hu => ⟨by unfold Grows; rw [(hf u).1]; exact g, (hf u).2 hu⟩
  have log : ∀ x, Grows s (s.pop.log x) := fun x => List.suffix_cons x _
  apply advance_elim (P := fun t => Grows s t ∧ (t.busy = true ∨ t.done = true))
  case wait => exact ⟨List.suffix_rfl, .inl hb⟩
  case next =>
    intro k op ph b ph' _ _ _ _
    cases ph <;> first | exact ⟨List.suffix_rfl, .inl hb⟩ | exact ⟨List.suffix_cons _ _, .inl hb⟩
  case modifyRead => exact fun k b _ _ => ⟨List.suffix_cons _ _, .inl hb⟩
  case response => exact fun k op b _ _ _ => via (ruleOf_after_quiet i k) (List.suffix_cons _ _) hb
  case written => exact fun k op b _ _ => via (ruleOf_after_quiet i k) (List.suffix_cons _ _) hb
  case error => exact fun k op ph e _ _ _ => via (ruleOf_fail_quiet i k _) (log _) hb
  case slept => exact fun k op ph ph' _ _ _ _ => ⟨log _, .inl hb⟩
  case aborted => exact fun k op ph _ _ _ => via (ruleOf_fail_quiet i k _) (log _) hb
  case woken => exact fun k _ _ => via (ruleOf_wake_quiet i k) (log _) hb
  case awaitAborted => exact fun k _ _ => via (ruleOf_fail_quiet i k _) (log _) hb
  case settled => exact fun _ _ => via (ruleOf_settled_quiet i) (log _) hb
  case look => exact fun _ => via (ruleOf_look_quiet i) List.suffix_rfl hb

/-- An issue leaves the trace, and the engine running or DONE. -/
theorem issue_grows (i : Instr) (s : State) :
    (issue (gateOf i) i (ruleOf i) s).trace = s.trace ∧
    ((issue (gateOf i) i (ruleOf i) s).busy = true ∨ (issue (gateOf i) i (ruleOf i) s).done = true) := by
  rcases issue_cases (gateOf i) i (ruleOf i) s with ⟨st, _, h⟩ | ⟨_, h⟩ <;> rw [h]
  · exact ⟨rfl, .inr rfl⟩
  · exact ⟨(ruleOf_start_quiet i _).1, (ruleOf_start_quiet i _).2 rfl⟩

/-- A step that is no engine reset adds to the trace at its end, keeps the engine running or DONE, and makes it so when it
issues a word. -/
theorem step_grows {s t : State} (h : step s = .next t) (hr : s.peek ≠ .reset) :
    Grows s t ∧ (s.busy = true ∨ s.done = true ∨ issuedWord s s.peek ≠ [] → t.busy = true ∨ t.done = true) := by
  rcases step_cases h with ⟨i, hb, _, _, _, rfl⟩ | ⟨i, w, _, _, _, rfl⟩ | ⟨e, w, _, _, _, rfl⟩ | ⟨w, hb, _, rfl⟩ |
    ⟨off, w, hp, _, rfl⟩ | ⟨hp, _⟩ | ⟨_, hw, rfl⟩
  · exact ⟨(advance_grows i hb).1, fun _ => (advance_grows i hb).2⟩
  · exact ⟨by simp [Grows, (issue_grows i s).1], fun _ => (issue_grows i s).2⟩
  · exact ⟨List.suffix_rfl, fun _ => .inr rfl⟩
  · exact ⟨List.suffix_rfl, fun _ => .inl hb⟩
  · exact ⟨List.suffix_rfl, fun c => c.imp_right fun c => c.resolve_right (by simp [hp, issuedWord])⟩
  · exact absurd hp hr
  · refine ⟨List.suffix_rfl, fun c => c.imp_right fun c => c.resolve_right ?_⟩
    cases hp : s.peek with
    | hostWrite off w => simpa [issuedWord] using fun (c : off = Config.hCmd) => absurd (c ▸ hp) (hw w)
    | _ => simp [issuedWord]

/-- Through a run without an engine reset the trace grows. -/
theorem Run.grows {e : Nat → Event} {r : Nat → State} (h : Run e r) {n : Nat} (hr : ∀ m, m < n → e m ≠ .reset) :
    Grows (r 0) (r n) := by
  induction n with
  | zero => exact List.suffix_rfl
  | succ n ih =>
    exact (ih fun m hm => hr m (by omega)).trans (step_grows (h n) (hr n (by omega))).1

/-- The observed bus trace is exactly what the run added to the trace it was launched with. -/
theorem busSince_append {l s : State} {new : List BusEvent} (h : s.trace = new ++ l.trace) :
    busSince l s = new.reverse := by
  simp [busSince, h]

/-- Before its end a run's trace is the launch's and its own. -/
theorem Run.trace_eq {e : Nat → Event} {r : Nat → State} (h : Run e r) {n : Nat} (hr : ∀ m, m < n → e m ≠ .reset) :
    (r n).busTrace = (r 0).busTrace ++ busSince (r 0) (r n) := by
  obtain ⟨new, hn⟩ := h.grows hr
  simp [State.busTrace, busSince_append hn.symm, ← hn]

/-- A run ends at one time only. -/
theorem EndsAt.unique {ws : List Word} {e : Nat → Event} {r : Nat → State} {m n : Nat} (hm : EndsAt ws e r m)
    (hn : EndsAt ws e r n) : m = n := by
  rcases Nat.lt_trichotomy m n with h | h | h
  · exact absurd (hn.first m h hm.issued) (by simp [hm.idle])
  · exact h
  · exact absurd (hm.first n h hn.issued) (by simp [hn.idle])

/-- At the end of a run that issued a word, DONE = 1 (R300). -/
theorem EndsAt.done {ws : List Word} {e : Nat → Event} {r : Nat → State} {n : Nat} (h : Run e r) (hn : EndsAt ws e r n)
    (hw : ws ≠ []) : (r n).done = true := by
  have run : ∀ m, m ≤ n → issuedWords e r m ≠ [] → (r m).busy = true ∨ (r m).done = true := by
    intro m
    induction m with
    | zero => exact fun _ c => absurd rfl c
    | succ m ih =>
      intro hm c
      refine (step_grows (h m) (hn.noReset m (by omega))).2 ?_
      by_cases hi : issuedWords e r m = []
      · refine .inr (.inr ?_)
        show issuedWord (r m) (e m) ≠ []
        simpa [issuedWords, hi] using c
      · exact (ih (by omega) hi).imp_right .inl
  simpa [hn.idle] using run n (Nat.le_refl n) (hn.issued ▸ hw)

/-- An engine reset that ends a run leaves FAULT and every host register at R50's values. -/
theorem ResetAt.host {ws : List Word} {e : Nat → Event} {r : Nat → State} {n : Nat} (h : Run e r)
    (hn : ResetAt ws e r n) : hostRegister (r (n + 1)) = hostRegister State.reset := by
  have hs := h n
  rw [hn.reset] at hs
  have ht : r (n + 1) = { State.reset with inbox := [], tick := (r n).tick + 1 } := by
    simpa [step, turn, State.peek, engineReset, State.pop] using hs.symm
  rw [ht]
  rfl

/-! ## Parameters -/

/-- A transport error code fits TERR, so zero-extending it keeps it (R7, R43). -/
theorem TErr.toNat_setWidth (e : TErr) : (e.setWidth 32).toNat = e.toNat := by
  have bound : Config.terrW ≤ 32 := Nat.le_of_lt_succ Config.terrWidth.isLt
  rw [BitVec.toNat_setWidth]
  exact Nat.mod_eq_of_lt (Nat.lt_of_lt_of_le e.isLt (Nat.pow_le_pow_right (by decide) bound))

/-- PROBE_ADDR matters at the issue of INIT alone, and exec is the machine at its decided value. -/
theorem execAt_eq {probe : VAddr} {i : Instr} {s : State}
    (h : i.op ≠ .init ∨ s.busy = true ∨ probe = Config.probeAddr) : execAt probe i s = exec i s := by
  cases i with
  | init mode gain itime =>
    rcases h with h | h | rfl
    · exact absurd rfl h
    · simp only [execAt, exec, execInit, command, h]
      rfl
    · rfl
  | _ => rfl

/-- step is the machine at PROBE_ADDR's decided value. -/
theorem stepAt_probeAddr (s : State) : stepAt Config.probeAddr s = step s := by
  unfold stepAt step
  cases turn s with
  | run i => exact execAt_eq (.inr (.inr rfl))
  | act o => rfl

/-! ## Bytes -/

/-- The request byte of a read is the address with bit 7 clear (R100). -/
theorem requestByte_read (a : VAddr) : requestByte false a = (0#1 ++ a : BitVec (1 + 7)) := by
  revert a; decide

/-- The request byte of a write is the address with bit 7 set (R100). -/
theorem requestByte_write (a : VAddr) : requestByte true a = (1#1 ++ a : BitVec (1 + 7)) := by
  revert a; decide

/-- Four bytes accumulated are F32 of them, whatever ACC held (R250, R160). -/
theorem accumulate_four (acc : Word) (b0 b1 b2 b3 : Byte) :
    accumulate (accumulate (accumulate (accumulate acc b0) b1) b2) b3 = f32 b0 b1 b2 b3 := by
  simp only [accumulate, f32]
  ext i hi
  simp only [BitVec.getElem_append, BitVec.getElem_extractLsb', BitVec.getLsbD_append, BitVec.getLsbD_extractLsb']
  by_cases h0 : i < 8 <;> by_cases h1 : i < 16 <;> by_cases h2 : i < 24 <;> simp_all <;> grind

end Sys2Proof.Machine
end

