-- ==== Sys2Proof/Tests/Slice0.lean ====
section
/-! SUPPORT. The author's own tests, each one step or one word, expected values from the spec; and for every obligation with
hypotheses a witness that something meets them. -/
namespace Sys2Proof.Tests
open Sys2Proof.Machine

/-! ## Small states -/

/-- The reset state with scripted events. -/
def fresh (es : List Event) : State := { State.reset with inbox := es }

/-- An initialized, idle engine of VariantA with scripted events. -/
def ready (es : List Event) : State := { State.reset with initialized := true, variant := some .a, inbox := es }

/-- An initialized engine running `i` at position `q`. -/
def running (i : Instr) (q : Seq) (es : List Event) : State :=
  { ready es with busy := true, cmdl := encode i, seq := q }

/-- An INIT running at position `q`. -/
def probing (q : Seq) (es : List Event) : State :=
  { fresh es with busy := true, cmdl := encode (.init 3 1 0x10), seq := q }

/-- The transport's normal answer with a byte. -/
def ok (b : Byte) : Event := .transport (.ok b)

/-- The transport's error with a code. -/
def err (e : TErr) : Event := .transport (.error e)

/-- The outcome is a next state that passes a check. -/
def goes (o : Host.Outcome State Fault Refusal) (p : State → Bool) : Bool :=
  match o with
  | .next t => p t
  | .fault _ => false
  | .refused _ => false

/-- The state is idle again, with this completion status. -/
def ended (st : Status) (t : State) : Bool := !t.busy && t.done && decide (t.seq = .idle) && decide (t.lastStatus = st)

/-! ## WellFormed: every operand check refuses an operand one past its field (R112, R123) -/

theorem test_wf_read : (Asm.read 127).wellFormed = true ∧ (Asm.read 128).wellFormed = false := by decide
theorem test_wf_write : (Asm.write 127 255).wellFormed = true ∧ (Asm.write 128 0).wellFormed = false ∧
    (Asm.write 0 256).wellFormed = false := by decide
theorem test_wf_modify : (Asm.modify 127 255 255).wellFormed = true ∧ (Asm.modify 128 0 0).wellFormed = false ∧
    (Asm.modify 0 256 0).wellFormed = false ∧ (Asm.modify 0 0 256).wellFormed = false := by decide
theorem test_wf_init : (Asm.init 3 3 255).wellFormed = true ∧ (Asm.init 4 0 0).wellFormed = false ∧
    (Asm.init 0 4 0).wellFormed = false ∧ (Asm.init 0 0 256).wellFormed = false := by decide
theorem test_wf_levels : (Asm.setMode 3).wellFormed = true ∧ (Asm.setMode 4).wellFormed = false ∧
    (Asm.setGain 3).wellFormed = true ∧ (Asm.setGain 4).wellFormed = false ∧
    (Asm.setBulbCur 3).wellFormed = true ∧ (Asm.setBulbCur 4).wellFormed = false ∧
    (Asm.setIndCur 3).wellFormed = true ∧ (Asm.setIndCur 4).wellFormed = false := by decide
theorem test_wf_switches : (Asm.setBulb 1).wellFormed = true ∧ (Asm.setBulb 2).wellFormed = false ∧
    (Asm.setInd 1).wellFormed = true ∧ (Asm.setInd 2).wellFormed = false := by decide
theorem test_wf_itime : (Asm.setItime 255).wellFormed = true ∧ (Asm.setItime 256).wellFormed = false := by decide
theorem test_ill_formed_has_no_word : assemble (.read 128) = none ∧ assemble (.init 0 4 0) = none ∧
    assemble (.setBulb 2) = none := by decide
/-- R123's own examples. -/
theorem test_assembles : assemble (.setGain 2) = some 0x30000002 ∧
    assemble (.modify 0x04 0xCF 0x20) = some 0x1804CF20 ∧ assemble (.init 3 1 0xFF) = some 0x2000FF07 := by decide

/-! ## Decoding: each constructor by a word written out as OP, RSV, ADDR, B, C (R110, R112) -/

theorem test_decode_read : decode (0b00001#5 ++ 0b0000#4 ++ 0b1111111#7 ++ 0x00#8 ++ 0x00#8) = .ok (.read 0x7F) := rfl
theorem test_decode_write : decode (0b00010#5 ++ 0b0000#4 ++ 0b0000101#7 ++ 0x00#8 ++ 0x32#8) = .ok (.write 0x05 0x32) := rfl
theorem test_decode_modify :
    decode (0b00011#5 ++ 0b0000#4 ++ 0b0000111#7 ++ 0xF7#8 ++ 0x08#8) = .ok (.modify 0x07 0xF7 0x08) := rfl
theorem test_decode_init :
    decode (0b00100#5 ++ 0b0000#4 ++ 0b0000000#7 ++ 0x10#8 ++ 0b00000110#8) = .ok (.init 2 1 0x10) := rfl
theorem test_decode_set_mode :
    decode (0b00101#5 ++ 0b0000#4 ++ 0b0000000#7 ++ 0x00#8 ++ 0b00000010#8) = .ok (.setMode 2) := rfl
theorem test_decode_set_gain :
    decode (0b00110#5 ++ 0b0000#4 ++ 0b0000000#7 ++ 0x00#8 ++ 0b00000001#8) = .ok (.setGain 1) := rfl
theorem test_decode_set_itime :
    decode (0b00111#5 ++ 0b0000#4 ++ 0b0000000#7 ++ 0x00#8 ++ 0xFE#8) = .ok (.setItime 0xFE) := rfl
theorem test_decode_set_bulb_cur :
    decode (0b01000#5 ++ 0b0000#4 ++ 0b0000000#7 ++ 0x00#8 ++ 0b00000011#8) = .ok (.setBulbCur 3) := rfl
theorem test_decode_set_bulb :
    decode (0b01001#5 ++ 0b0000#4 ++ 0b0000000#7 ++ 0x00#8 ++ 0b00000001#8) = .ok (.setBulb 1) := rfl
theorem test_decode_set_ind_cur :
    decode (0b01010#5 ++ 0b0000#4 ++ 0b0000000#7 ++ 0x00#8 ++ 0b00000010#8) = .ok (.setIndCur 2) := rfl
theorem test_decode_set_ind :
    decode (0b01011#5 ++ 0b0000#4 ++ 0b0000000#7 ++ 0x00#8 ++ 0b00000001#8) = .ok (.setInd 1) := rfl
theorem test_decode_soft_reset : decode (0b01100#5 ++ 0#27) = .ok .softReset := rfl
theorem test_decode_get_name : decode (0b01101#5 ++ 0#27) = .ok .getName := rfl
theorem test_decode_get_wavelengths : decode (0b01110#5 ++ 0#27) = .ok .getWavelengths := rfl
theorem test_decode_take_meas : decode (0b01111#5 ++ 0#27) = .ok .takeMeas := rfl
theorem test_decode_take_meas_illum : decode (0b10000#5 ++ 0#27) = .ok .takeMeasIllum := rfl
theorem test_decode_read_cal : decode (0b10001#5 ++ 0#27) = .ok .readCal := rfl
theorem test_decode_read_temp : decode (0b10010#5 ++ 0#27) = .ok .readTemp := rfl
/-- The edges of the reserved OP values (R122). -/
theorem test_decode_illegal : decode 0x00000000 = .error .illegalCommand ∧ decode 0x98000000 = .error .illegalCommand ∧
    decode 0xF8000000 = .error .illegalCommand := ⟨rfl, rfl, rfl⟩
/-- The lowest and the highest must-be-zero bit of some rows (R112, R121). -/
theorem test_decode_bad_operand : decode 0x08000001 = .error .badOperand ∧ decode 0x08840000 = .error .badOperand ∧
    decode 0x20000010 = .error .badOperand ∧ decode 0x48000002 = .error .badOperand ∧
    decode 0x94000000 = .error .badOperand := ⟨rfl, rfl, rfl, rfl, rfl⟩
/-- The opcode table's words through the decoder's table form. -/
theorem test_decode_table : decodeTableWord 32 0x18000000 = some (.modify 0 0 0) ∧
    decodeTableWord 32 0x00000000 = none := by decide

/-! ## One step of each command (what its issue leaves in VA, VD, MAND and MOR: log entry 21) -/

/-- R173's example: the response 0x2C. -/
theorem test_read_response :
    goes (exec (.read 0x04) (running (.read 0x04) (.chan 0 .vread .rResp) [ok 0x2C]))
      (fun t => ended .ok t && t.resultValid && !t.resultWords && decide (t.resByte = 0x2C)) = true := by decide
/-- R171: a stale byte is drained only where bit 0 of the first STATUS byte is set. -/
theorem test_read_stale_check :
    goes (exec (.read 0x7F) (running (.read 0x7F) (.chan 0 .vread .rChk) [ok 0x01]))
      (fun t => decide (t.seq = .chan 0 .vread .rDrain)) = true ∧
    goes (exec (.read 0x7F) (running (.read 0x7F) (.chan 0 .vread .rChk) [ok 0xFE]))
      (fun t => decide (t.seq = .chan 0 .vread .rTxw)) = true := by decide
/-- R177's example: the address byte of 0x05 is 0x85. -/
theorem test_write_address :
    goes (exec (.write 0x05 0x32) { running (.write 0x05 0x32) (.chan 0 .vwrite .wAddr) [ok 0] with va := 0x05, vd := 0x32 })
      (fun t => decide (t.trace = [.write 0x85]) && decide (t.seq = .chan 0 .vwrite .wTx2)) = true := by decide
/-- R177's example: the data byte, and no result. -/
theorem test_write_data :
    goes (exec (.write 0x05 0x32) { running (.write 0x05 0x32) (.chan 0 .vwrite .wData) [ok 0] with va := 0x05, vd := 0x32 })
      (fun t => ended .ok t && !t.resultValid && decide (t.trace = [.write 0x32])) = true := by decide
/-- R181's example: 0x0C with the masks 0xCF, 0x20 gives 0x2C. -/
theorem test_modify_combines :
    goes (exec (.modify 0x04 0xCF 0x20)
        { running (.modify 0x04 0xCF 0x20) (.chan 0 .vmodify .rResp) [ok 0x0C] with va := 0x04, mand := 0xCF, mor := 0x20 })
      (fun t => decide (t.vd = 0x2C) && decide (t.seq = .chan 0 .vmodify .wTx1) && t.busy) = true := by decide
/-- R201: the probe byte 0x3E is VariantA. -/
theorem test_init_probe_matches :
    goes (exec (.init 3 1 0x10) (probing (.chan 0 .vread .rResp) [ok 0x3E]))
      (fun t => decide (t.variant = some .a) && t.busy && !t.initialized && decide (t.va = 0x07)
        && decide (t.mand = 0xCF) && decide (t.mor = 0x00)) = true := by decide
/-- R283, R164: 0xBE, 0x3E with bit 7 set, is no variant. -/
theorem test_init_probe_fails :
    goes (exec (.init 3 1 0x10) (probing (.chan 0 .vread .rResp) [ok 0xBE]))
      (fun t => ended .unsupportedDevice t && decide (t.variant = none) && !t.initialized) = true := by decide
/-- R107: SET_MODE 2. -/
theorem test_set_mode_masks : goes (exec (.setMode 2) (ready [.quiet]))
    (fun t => decide (t.va = 0x04) && decide (t.mand = 0xF3) && decide (t.mor = 0x08)) = true := by decide
/-- R107: SET_GAIN 2. -/
theorem test_set_gain_masks : goes (exec (.setGain 2) (ready [.quiet]))
    (fun t => decide (t.va = 0x04) && decide (t.mand = 0xCF) && decide (t.mor = 0x20)) = true := by decide
/-- R207: a plain write. -/
theorem test_set_itime_writes : goes (exec (.setItime 0xFF) (ready [.quiet]))
    (fun t => decide (t.va = 0x05) && decide (t.vd = 0xFF) && decide (t.seq = .chan 0 .vwrite .wTx1)) = true := by decide
/-- R107: SET_BULB_CUR 3. -/
theorem test_set_bulb_cur_masks : goes (exec (.setBulbCur 3) (ready [.quiet]))
    (fun t => decide (t.va = 0x07) && decide (t.mand = 0xCF) && decide (t.mor = 0x30)) = true := by decide
/-- R107: SET_BULB 1. -/
theorem test_set_bulb_masks : goes (exec (.setBulb 1) (ready [.quiet]))
    (fun t => decide (t.va = 0x07) && decide (t.mand = 0xF7) && decide (t.mor = 0x08)) = true := by decide
/-- R107: SET_IND_CUR 3. -/
theorem test_set_ind_cur_masks : goes (exec (.setIndCur 3) (ready [.quiet]))
    (fun t => decide (t.va = 0x07) && decide (t.mand = 0xF9) && decide (t.mor = 0x06)) = true := by decide
/-- R107: SET_IND 1. -/
theorem test_set_ind_masks : goes (exec (.setInd 1) (ready [.quiet]))
    (fun t => decide (t.va = 0x07) && decide (t.mand = 0xFE) && decide (t.mor = 0x01)) = true := by decide
/-- R215: after the bit-7 write the engine settles, BUSY. -/
theorem test_soft_reset_settles :
    goes (exec .softReset (running .softReset (.chan 0 .vmodify .wData) [ok 0]))
      (fun t => t.busy && t.settling && decide (t.seq = .settle)) = true := by decide
/-- R215: the settle event ends it, INITIALIZED kept, and is in the trace (R11). -/
theorem test_soft_reset_ends :
    goes (exec .softReset { running .softReset .settle [.timer] with settling := true })
      (fun t => ended .ok t && !t.settling && t.initialized && decide (t.trace = [.settle])) = true := by decide
/-- R220: VariantA's code is 1. -/
theorem test_get_name : goes (exec .getName (running .getName .lookup [.quiet]))
    (fun t => ended .ok t && t.resultValid && !t.resultWords && decide (t.resByte = 1)) = true := by decide
/-- R151: VariantB's wavelengths. -/
theorem test_get_wavelengths :
    goes (exec .getWavelengths { running .getWavelengths .lookup [.quiet] with variant := some .b })
      (fun t => ended .ok t && t.resultWords && decide (t.resWord = #v[610, 680, 730, 760, 810, 860])) = true := by decide
/-- R241's example: 0x1E has data-available set. -/
theorem test_take_meas_observes :
    goes (exec .takeMeas { running .takeMeas (.chan 2 .vread .rResp) [ok 0x1E] with measAwaiting := true })
      (fun t => ended .ok t && !t.measAwaiting && !t.resultValid) = true := by decide
/-- R241's example: 0x1C has not, so the poll sleeps. -/
theorem test_take_meas_sleeps :
    goes (exec .takeMeas { running .takeMeas (.chan 2 .vread .rResp) [ok 0x1C] with measAwaiting := true })
      (fun t => t.busy && t.measAwaiting && decide (t.seq = .daSleep 2)) = true := by decide
/-- R246 (a): an abort of the data-available poll starts the cleanup. -/
theorem test_illum_abort_cleans_up :
    goes (exec .takeMeasIllum { running .takeMeasIllum (.daSleep 3) [.abort] with measAwaiting := true })
      (fun t => t.busy && !t.measAwaiting && decide (t.err1 = some .aborted) && decide (t.va = 0x07)
        && decide (t.mand = 0xF7) && decide (t.mor = 0x00)) = true := by decide
/-- R246 (c): the first failure is reported, the cleanup's code is not kept. -/
theorem test_illum_reports_first (first later : TErr) :
    ∃ t, exec .takeMeasIllum
        { running .takeMeasIllum (.chan 4 .vmodify .wAddr) [err later] with va := 0x07, err1 := some (.transport first) } =
      .next t ∧ ended .transportError t = true ∧ t.cleanupFailed = true ∧ t.terr = first.setWidth 32 :=
  ⟨_, rfl, rfl, rfl, rfl⟩
/-- R250: the first address is 0x14. -/
theorem test_read_cal_first : goes (exec .readCal (ready [.quiet]))
    (fun t => decide (t.va = 0x14) && decide (t.seq = .chan 0 .vread .rChk)) = true := by decide
/-- R250: the last byte, at 0x2B, completes the sixth word, 200.0. -/
theorem test_read_cal_last :
    goes (exec .readCal { running .readCal (.chan 0 .vread .rResp) [ok 0x00] with
        va := 0x2B, gk := 5, bj := 3, acc := 0x00434800, stage := #v[1, 2, 3, 4, 5, 0] })
      (fun t => ended .ok t && t.resultWords && decide (t.resWord = #v[1, 2, 3, 4, 5, 0x43480000])) = true := by decide
/-- R255: virtual register 0x06. -/
theorem test_read_temp_address : goes (exec .readTemp (ready [.quiet])) (fun t => decide (t.va = 0x06)) = true := by decide
/-- R255's example: 0x1D. -/
theorem test_read_temp_response :
    goes (exec .readTemp (running .readTemp (.chan 0 .vread .rResp) [ok 0x1D]))
      (fun t => ended .ok t && t.resultValid && decide (t.resByte = 0x1D)) = true := by decide

/-! ## The host port and reset -/

/-- R31: an INIT that finished OK against VariantA reads as DONE, INITIALIZED, VARIANT 1 (95, P1). -/
theorem test_eng_status : engStatus { ready [] with done := true } = 0x000000E0 := by decide
/-- R273: a READ right after reset is refused. -/
theorem test_step_gates : goes (step (State.reset.withFetchWord 32 0x08040000))
    (fun t => ended .notInitialized t) = true := by decide
/-- 92 D5: with PROBE_ADDR at 0x00 INIT reads device-type, and at 0x01 hardware-version. -/
theorem test_probe_addr : ∀ a ∈ [(0x00 : VAddr), 0x01],
    goes (stepAt a (State.reset.withFetchWord 32 0x20001007)) (fun t => t.busy && decide (t.va = a)) = true := by decide
/-- R274: an INIT right after reset is accepted. -/
theorem test_step_accepts : goes (step (State.reset.withFetchWord 32 0x20001007))
    (fun t => t.busy && decide (t.cmdl = 0x20001007) && decide (t.va = 0x01)) = true := by decide
/-- R310: a running command is abandoned without its cleanup. -/
theorem test_step_reset :
    goes (step (running .takeMeasIllum (.daSleep 3) [.reset])) (fun t => decide ({ t with tick := 0 } = State.reset)) = true := by
  decide

/-! ## The end of a run (R300) -/

/-- The host writes one word to CMD at the first step of a run and nothing after. -/
def oneWord (w : Word) (n : Nat) : Event := if n = 0 then .hostWrite 0x00 w else .quiet

/-- The run of a READ on an engine not initialized, whose trace holds what an earlier run left. -/
def refusedRun (n : Nat) : State :=
  if n = 0 then { State.reset with trace := [.read 0x2C] }
  else { State.reset with trace := [.read 0x2C], lastStatus := .notInitialized, done := true, tick := n }

/-- Such a run is a run of its program, ends at the refusal step, and shows nothing of the earlier run's trace. -/
theorem test_run_ends_at_the_refusal :
    Run (oneWord 0x08040000) refusedRun ∧ EndsAt [0x08040000] (oneWord 0x08040000) refusedRun 1 ∧
    observe (refusedRun 0) (refusedRun 1) =
      { status := 0x26, terr := 0, byte := none, words := none, fault := 0, bus := [] } := by
  refine ⟨fun n => ?_, ⟨rfl, rfl, fun m hm => ?_, fun m hm => ?_⟩, by decide⟩
  · match n with
    | 0 => rfl
    | n + 1 => rfl
  all_goals
    obtain rfl : m = 0 := by omega
    decide
/-- R299: that host issues its one word while BUSY = 0 and nothing else. -/
theorem test_host_program : HostProgram [0x08040000] (oneWord 0x08040000) refusedRun := by
  have all : ∀ n, issuedWords (oneWord 0x08040000) refusedRun (n + 1) = [0x08040000] := by
    intro n
    induction n with
    | zero => rfl
    | succ n ih => rw [issuedWords, ih]; rfl
  refine ⟨fun n w h => ?_, fun n => ?_⟩
  · match n, h with
    | 0, _ => rfl
    | n + 1, _ => rfl
  · match n with
    | 0 => exact List.nil_prefix
    | n + 1 => exact (all n).symm ▸ List.prefix_rfl
/-- The bench: no word to issue, BUSY = 0, so its run has ended at once. -/
theorem test_bench_ends (d : RefDevice) :
    Bench.EndsAt { eng := ready [], dev := d, words := [], aborts := [] } 0
      { eng := ready [], dev := d, words := [], aborts := [] } :=
  ⟨rfl, ⟨rfl, rfl⟩, fun m hm => absurd hm (Nat.not_lt_zero m)⟩

/-! ## Witnesses: something meets the hypotheses of each obligation -/

/-- Each clause of EveryWordIsOneOfThree: OP 0x00, 0x13 and 0x1F; the first and the last row, met and missed. -/
theorem witness_EveryWordIsOneOfThree :
    (0x00000000#32).toNat / 2 ^ 27 = 0 ∧ 0x13 ≤ (0x98000000#32).toNat / 2 ^ 27 ∧ 0x13 ≤ (0xF8000000#32).toNat / 2 ^ 27 ∧
    ((0x08800000#32).toNat / 2 ^ 27 = Op.read.code.toNat ∧ 0x08800000#32 &&& Op.read.mask ≠ Op.read.matchWord) ∧
    ((0x087F0000#32).toNat / 2 ^ 27 = Op.read.code.toNat ∧ 0x087F0000#32 &&& Op.read.mask = Op.read.matchWord) ∧
    ((0x90000001#32).toNat / 2 ^ 27 = Op.readTemp.code.toNat ∧ 0x90000001#32 &&& Op.readTemp.mask ≠ Op.readTemp.matchWord) ∧
    ((0x90000000#32).toNat / 2 ^ 27 = Op.readTemp.code.toNat ∧
      0x90000000#32 &&& Op.readTemp.mask = Op.readTemp.matchWord) := by decide

theorem witness_StepRunsTheDecodedCommand_issue :
    (ready [.hostWrite 0x00 0x08040000]).busy = false ∧
    (ready [.hostWrite 0x00 0x08040000]).inbox = [.hostWrite 0x00 0x08040000] ∧
    decode 0x08040000 = .ok (.read 0x04) := ⟨rfl, rfl, rfl⟩
/-- Every event the engine itself may take. -/
theorem witness_StepRunsTheDecodedCommand_own : ∀ e ∈ [Event.timer, .abort, .quiet, ok 0xFF, err 1],
    (running .takeMeas (.daSleep 2) [e]).busy = true ∧ (running .takeMeas (.daSleep 2) [e]).inbox = [e] ∧
    decode (running .takeMeas (.daSleep 2) [e]).cmdl = .ok .takeMeas :=
  fun _ _ => ⟨rfl, rfl, test_decode_take_meas⟩

/-- A running SOFT_RESET in its settle wait meets RegsInv, and so steps. -/
theorem witness_StepKeepsRegsInv :
    RegsInv { running .softReset .settle [.timer] with settling := true } ∧
    ∃ t, step { running .softReset .settle [.timer] with settling := true } = .next t :=
  ⟨⟨by simp [running], fun _ => ⟨rfl, rfl⟩, by simp [running, ready, State.reset], by simp [running, ready],
    by simp [running, ready, State.reset], by simp [running, ready, State.reset], by simp [running]⟩, _, rfl⟩
/-- An INIT past its probe meets RegsInv with every implication's premise it can have. -/
theorem witness_StepKeepsRegsInv_init :
    RegsInv { probing (.chan 7 .vmodify .wData) [ok 0] with variant := some .b } ∧
    ∃ t, step { probing (.chan 7 .vmodify .wData) [ok 0] with variant := some .b } = .next t :=
  ⟨⟨by simp [probing], by simp [probing, fresh, State.reset], by simp [probing, fresh, State.reset],
    by simp, by simp [probing, fresh, State.reset], by simp [probing, fresh, State.reset],
    by simp⟩, _, rfl⟩
theorem witness_StepKeepsPositionInv :
    PositionInv (running .takeMeasIllum (.daSleep 3) [.abort]) ∧
    ∃ t, step (running .takeMeasIllum (.daSleep 3) [.abort]) = .next t :=
  ⟨fun _ => ⟨.takeMeasIllum, rfl, .inr ⟨rfl, rfl⟩⟩, _, rfl⟩
/-- A VWrite that waits for its data phase, right after its address byte and a poll. -/
theorem witness_StepKeepsHandshakeInv :
    let s := { running (.write 0x05 0x32) (.chan 0 .vwrite .wData) [ok 0] with
      va := 0x05, vd := 0x32, sreg := 0x00, trace := [.status 0x00, .write 0x85] }
    PositionInv s ∧ HandshakeInv s ∧ ∃ t, step s = .next t :=
  ⟨fun _ => ⟨.write 0x05 0x32, rfl, rfl, rfl⟩,
    ⟨by simp [List.findSome?, BusEvent.statusByte], fun _ _ _ _ _ => rfl, fun _ _ _ => rfl,
      by simp [State.request, running, Phase.request],
      fun _ _ _ _ _ => rfl, fun k op ph h hp => by simp [running] at h; simp [← h.2.2] at hp⟩, _, rfl⟩
theorem witness_EngineResetFromAnyState :
    (running .takeMeas (.daSleep 2) [.reset, .quiet]).inbox = .reset :: [.quiet] := rfl

/-- Each clause of HostRegisterMap: a byte result, a result of words, offsets outside the map, a read, a write. -/
theorem witness_HostRegisterMap :
    ({ ready [] with resultValid := true }.resultValid = true ∧ { ready [] with resultValid := true }.resultWords = false) ∧
    ({ ready [] with resultValid := true, resultWords := true }.resultValid = true ∧
      { ready [] with resultValid := true, resultWords := true }.resultWords = true) ∧
    (∀ off ∈ [0x01, 0x0D, 0x27, 0x29, 0x2C], off ∉ [0x00, 0x04, 0x08, 0x0C, 0x10, 0x14, 0x18, 0x1C, 0x20, 0x24, 0x28]) ∧
    ((ready [.hostRead 0x04]).inbox = [.hostRead 0x04] ∧ hostRegister (ready [.hostRead 0x04]) 0x04 = .ok 0x000000C0) ∧
    ((ready [.hostWrite 0x04 1]).inbox = [.hostWrite 0x04 1] ∧ 0x04 ≠ 0x00) := by
  refine ⟨⟨rfl, rfl⟩, ⟨rfl, rfl⟩, by decide, ⟨rfl, rfl⟩, rfl, by decide⟩
/-- RES_BYTE without a result and with words; the first and the last RES_WORD without a result and with a byte. -/
theorem witness_ResultReadWithoutValueFaults :
    (ready [.hostRead 0x0C]).resultValid = false ∧
    { ready [.hostRead 0x0C] with resultValid := true, resultWords := true }.resultWords = true ∧
    (ready [.hostRead 0x10]).resultValid = false ∧
    { ready [.hostRead 0x24] with resultValid := true }.resultWords = false ∧
    { ready [.hostRead 0x24] with resultValid := true }.inbox = [.hostRead 0x24] := ⟨rfl, rfl, rfl, rfl, rfl⟩
theorem witness_WriteWhileBusyOnlySetsOverrun :
    (running .readCal (.chan 0 .vread .rChk) [.hostWrite 0x00 0]).busy = true ∧
    (running .readCal (.chan 0 .vread .rChk) [.hostWrite 0x00 0]).inbox = [.hostWrite 0x00 0] := ⟨rfl, rfl⟩
/-- A step at an engine reset, one at an overrun, one at neither. -/
theorem witness_FaultIsSticky :
    (∃ t, step (running .readCal (.chan 0 .vread .rChk) [.reset]) = .next t) ∧
    (∃ t, step (running .readCal (.chan 0 .vread .rChk) [.hostWrite 0x00 0]) = .next t) ∧
    (∃ t, step { ready [.quiet] with hostOverrun := true } = .next t) := ⟨⟨_, rfl⟩, ⟨_, rfl⟩, ⟨_, rfl⟩⟩
theorem witness_UndecodableWordIsRefused : ∀ w ∈ [0x00000000#32, 0x08840000],
    (ready [.hostWrite 0x00 w]).busy = false ∧ (ready [.hostWrite 0x00 w]).inbox = [.hostWrite 0x00 w] ∧
    ∃ e, decode w = .error e := by
  intro w hw
  rcases List.mem_cons.mp hw with rfl | hw
  · exact ⟨rfl, rfl, _, rfl⟩
  · rcases List.mem_cons.mp hw with rfl | hw
    · exact ⟨rfl, rfl, _, rfl⟩
    · simp at hw
theorem witness_GatingRefuses :
    ((fresh [.quiet]).busy = false ∧ (fresh [.quiet]).inbox = [.quiet] ∧ (fresh [.quiet]).initialized = false ∧
      (Instr.readTemp).op ≠ .init) ∧
    ((ready [.quiet]).busy = false ∧ (ready [.quiet]).inbox = [.quiet] ∧ (ready [.quiet]).initialized = true) := by decide
/-- An INIT on a fresh engine, another command on an initialized one. -/
theorem witness_AcceptedCommandIsLatched :
    ((fresh [.quiet]).busy = false ∧ ((fresh [.quiet]).initialized = true ↔ (Instr.init 0 0 0).op ≠ .init)) ∧
    ((ready [.quiet]).busy = false ∧ ((ready [.quiet]).initialized = true ↔ Instr.getName.op ≠ .init)) := by decide

/-- Every phase, with a transaction's answer and with the timer's event. -/
theorem witness_ChannelPhaseTable (op : OpKind) (ph : Phase) (e : Event) :
    (running (.read 0x04) (.chan 0 op ph) [e]).busy = true ∧ (running (.read 0x04) (.chan 0 op ph) [e]).inbox = [e] ∧
    (running (.read 0x04) (.chan 0 op ph) [e]).seq = .chan 0 op ph := ⟨rfl, rfl, rfl⟩
/-- The response phase of a position: of a plain VRead and of a VModify. -/
theorem witness_ChannelPhaseTable_response :
    position (.read 0x04) (.chan 0 .vread .rResp) ∧ position (.setMode 3) (.chan 0 .vmodify .rResp) :=
  ⟨⟨rfl, rfl⟩, rfl, rfl⟩
theorem witness_ModifyCombinesAndWrites :
    (running (.setInd 1) (.chan 0 .vmodify .rResp) [ok 0xFF]).busy = true ∧
    (running (.setInd 1) (.chan 0 .vmodify .rResp) [ok 0xFF]).seq = .chan 0 .vmodify .rResp ∧
    (running (.setInd 1) (.chan 0 .vmodify .rResp) [ok 0xFF]).inbox = [ok 0xFF] := ⟨rfl, rfl, rfl⟩
/-- No stale byte, and one. -/
theorem witness_VReadDrainsOneStaleByte :
    ((0xFE#8).getLsbD 0 = false ∧ (0xFD#8).getLsbD 1 = false ∧ (0x01#8).getLsbD 0 = true ∧
      (running (.read 0) (.chan 0 .vread .rChk) (answers [0xFE, 0xFD, 0, 0x01])).inbox =
        answers [0xFE, 0xFD, 0, 0x01] ++ []) ∧
    ((0x01#8).getLsbD 0 = true ∧
      (running (.read 0) (.chan 0 .vread .rChk) (answers [0x01, 0x2C, 0xFD, 0, 0x01])).inbox =
        answers [0x01, 0x2C, 0xFD, 0, 0x01] ++ []) := by decide
/-- Two unmet polls in each polling phase. -/
theorem witness_PollsAreUnbounded : ∀ x ∈ [(Phase.rTxw, (0x02 : Byte)), (.wTx1, 0xFF), (.wTx2, 0x03), (.rRxw, 0xFE)],
    let s := running (.modify 0 0 0) (.chan 0 .vmodify x.1) [ok x.2, .timer, ok x.2, .timer]
    s.busy = true ∧ s.seq = .chan 0 .vmodify x.1 ∧
    ((x.1 = .rTxw ∨ x.1 = .wTx1 ∨ x.1 = .wTx2) ∧ x.2.getLsbD 1 = true ∨ x.1 = .rRxw ∧ x.2.getLsbD 0 = false) ∧
    s.inbox = (List.replicate 2 [Event.transport (.ok x.2), .timer]).flatten ++ [] := by decide
/-- Two unmet polls of each command that has the poll. -/
theorem witness_DataAvailablePollIsUnbounded : ∀ x ∈ [(Instr.takeMeas, 2), (.takeMeasIllum, 3)],
    let s := running x.1 (.daSleep x.2) ([.timer] ++ rdAnswers 0xFD ++ [.timer] ++ rdAnswers 0xFD)
    (x.1 = .takeMeas ∧ x.2 = 2 ∨ x.1 = .takeMeasIllum ∧ x.2 = 3) ∧ s.busy = true ∧ s.seq = .daSleep x.2 ∧
    (0xFD#8).getLsbD 1 = false ∧ s.inbox = (List.replicate 2 (.timer :: rdAnswers 0xFD)).flatten ++ [] := by decide
theorem witness_TransportErrorEndsTheCommand (e : TErr) :
    Instr.readCal ≠ .takeMeasIllum ∧ (running .readCal (.chan 0 .vread .rReq) [err e]).busy = true ∧
    (running .readCal (.chan 0 .vread .rReq) [err e]).request = some (.busWrite 0x01 0x00) ∧
    (running .readCal (.chan 0 .vread .rReq) [err e]).inbox = [err e] := ⟨by decide, rfl, rfl, rfl⟩
/-- Each sleep of a channel op, and the data-available sleep. -/
theorem witness_AbortAtASleepEndsTheCommand :
    (∀ ph ∈ [Phase.rTxs, .rRxs, .wTx1s, .wTx2s],
      (running (.modify 0 0 0) (.chan 0 .vmodify ph) [.abort]).busy = true ∧
      (running (.modify 0 0 0) (.chan 0 .vmodify ph) [.abort]).seq = .chan 0 .vmodify ph ∧
      (running (.modify 0 0 0) (.chan 0 .vmodify ph) [.abort]).inbox = [.abort]) ∧
    ((running .takeMeas (.daSleep 2) [.abort]).seq = .daSleep 2 ∧ Instr.takeMeas ≠ .takeMeasIllum) := by decide
/-- An idle engine, a transaction in flight, the settle wait, a finish step. -/
theorem witness_NoOtherAbort :
    ((ready [.abort]).inbox = [.abort] ∧ (ready [.abort]).busy = false) ∧
    (running .readCal (.chan 0 .vread .rChk) [.abort]).request = some (.busRead 0x00) ∧
    (running .softReset .settle [.abort]).seq = .settle ∧ (running .getName .lookup [.abort]).seq = .lookup := by decide
theorem witness_UnansweredTransactionWaits : ∀ e ∈ [Event.timer, .abort, .quiet],
    (running .readCal (.chan 0 .vread .rChk) [e]).busy = true ∧
    (running .readCal (.chan 0 .vread .rChk) [e]).request = some (.busRead 0x00) ∧ ∀ a, e ≠ .transport a := by
  intro e he
  refine ⟨rfl, rfl, ?_⟩
  rintro a rfl
  simp at he
/-- A read of STATUS, a read of READ, a write of a request byte and of a data byte. -/
theorem witness_OnlyThreePhysicalRegisters :
    (running .readCal (.chan 0 .vread .rTxw) []).request = some (.busRead 0x00) ∧
    (running .readCal (.chan 0 .vread .rResp) []).request = some (.busRead 0x02) ∧
    { running (.write 0x7F 1) (.chan 0 .vwrite .wAddr) [] with va := 0x7F }.request = some (.busWrite 0x01 0xFF) ∧
    { running (.write 0x7F 1) (.chan 0 .vwrite .wData) [] with vd := 0x01 }.request = some (.busWrite 0x01 0x01) := by decide

/-- The hypotheses of a whole VRead command (READ, READ_TEMP). -/
theorem witness_ReadAndReadTempRunToTheirFinish :
    let s := ready (.quiet :: readAnswers 0x00 0x00 0 0x01 0x2C)
    s.busy = false ∧ s.initialized = true ∧ ReadPrompt 0x00 0x00 0x01 ∧
    s.inbox = .quiet :: readAnswers 0x00 0x00 0 0x01 0x2C ++ [] :=
  ⟨rfl, rfl, ⟨rfl, rfl, rfl⟩, rfl⟩
/-- The hypotheses of a whole VWrite command (WRITE, SET_ITIME). -/
theorem witness_WriteAndSetItimeRunToTheirFinish :
    let s := ready (.quiet :: answers [0xFD, 0, 0x01, 0])
    s.busy = false ∧ s.initialized = true ∧ (0xFD#8).getLsbD 1 = false ∧ (0x01#8).getLsbD 1 = false ∧
    s.inbox = .quiet :: answers [0xFD, 0, 0x01, 0] ++ [] := ⟨rfl, rfl, rfl, rfl, rfl⟩
/-- The hypotheses of a whole VModify command (MODIFY, the setters, SOFT_RESET's first clause). -/
theorem witness_ModifyRunsToItsFinish :
    let s := ready (.quiet :: readAnswers 0x00 0x01 0 0x01 0x0C ++ answers [0x00, 0, 0x01, 0])
    s.busy = false ∧ s.initialized = true ∧ ReadPrompt 0x00 0x01 0x01 ∧ (0x00#8).getLsbD 1 = false ∧
    (0x01#8).getLsbD 1 = false ∧
    s.inbox = .quiet :: readAnswers 0x00 0x01 0 0x01 0x0C ++ answers [0x00, 0, 0x01, 0] ++ [] :=
  ⟨rfl, rfl, ⟨rfl, rfl, rfl⟩, rfl, rfl, rfl⟩
theorem witness_ControlSettersRunToTheirFinish :
    let s := ready (.quiet :: readAnswers 0x00 0x01 0 0x01 0xFF ++ answers [0x00, 0, 0x01, 0])
    s.busy = false ∧ s.initialized = true ∧ ReadPrompt 0x00 0x01 0x01 ∧
    s.inbox = .quiet :: readAnswers 0x00 0x01 0 0x01 0xFF ++ answers [0x00, 0, 0x01, 0] ++ [] :=
  ⟨rfl, rfl, ⟨rfl, rfl, rfl⟩, rfl⟩
theorem witness_LedSettersRunToTheirFinish :
    let s := ready (.quiet :: readAnswers 0x00 0x01 0 0x01 0x38 ++ answers [0x00, 0, 0x01, 0])
    s.busy = false ∧ s.initialized = true ∧ ReadPrompt 0x00 0x01 0x01 ∧
    s.inbox = .quiet :: readAnswers 0x00 0x01 0 0x01 0x38 ++ answers [0x00, 0, 0x01, 0] ++ [] :=
  ⟨rfl, rfl, ⟨rfl, rfl, rfl⟩, rfl⟩
/-- Both clauses of SoftResetRunsToItsFinish. -/
theorem witness_SoftResetRunsToItsFinish :
    (let s := ready (.quiet :: readAnswers 0x00 0x01 0 0x01 0x7F ++ answers [0x00, 0, 0x01, 0])
     s.busy = false ∧ s.initialized = true ∧
     s.inbox = .quiet :: readAnswers 0x00 0x01 0 0x01 0x7F ++ answers [0x00, 0, 0x01, 0] ++ []) ∧
    ((running .softReset .settle [.timer]).busy = true ∧ (running .softReset .settle [.timer]).seq = .settle ∧
     (running .softReset .settle [.timer]).inbox = [.timer]) := ⟨⟨rfl, rfl, rfl⟩, rfl, rfl, rfl⟩
/-- The last clause of SoftResetRunsToItsFinish: a run whose settle event comes at its second step, then nothing more. -/
theorem witness_SoftResetRunsToItsFinish_run :
    let e := fun n : Nat => if n = 1 then Event.timer else .quiet
    let r := fun n : Nat =>
      if n < 2 then { running .softReset .settle [] with settling := true, tick := n }
      else { running .softReset .settle [] with
        busy := false, done := true, seq := .idle, trace := [.settle], tick := n }
    Run e r ∧ NoReset e ∧ SettleEventComes e r ∧
    (r 0).busy = true ∧ decode (r 0).cmdl = .ok .softReset ∧ (r 0).seq = .settle := by
  refine ⟨fun n => ?_, fun n => ?_, fun n hn => ⟨1, ?_, rfl⟩, rfl, rfl, rfl⟩
  · match n with
    | 0 => rfl
    | 1 => rfl
    | n + 2 => rfl
  · dsimp only
    split <;> decide
  · match n, hn with
    | 0, _ => decide
    | 1, _ => decide
    | n + 2, hn => exact absurd (show Seq.idle = .settle from hn) (by decide)
theorem witness_SettleWaitEndsOnlyAtTheTimer : ∀ e ∈ [Event.abort, .quiet, ok 0, .reset],
    (running .softReset .settle [e]).busy = true ∧ (running .softReset .settle [e]).seq = .settle ∧ e ≠ .timer := by decide
theorem witness_GetNameRunsToItsFinish :
    (ready [.quiet, .abort]).busy = false ∧ (ready [.quiet, .abort]).initialized = true ∧
    (ready [.quiet, .abort]).inbox = [.quiet, .abort] := ⟨rfl, rfl, rfl⟩
theorem witness_GetWavelengthsRunsToItsFinish : ∀ v ∈ [Variant.a, .b],
    { ready [.quiet, .quiet] with variant := some v }.busy = false ∧
    { ready [.quiet, .quiet] with variant := some v }.initialized = true ∧
    { ready [.quiet, .quiet] with variant := some v }.variant = some v ∧
    { ready [.quiet, .quiet] with variant := some v }.inbox = [.quiet, .quiet] := fun _ _ => ⟨rfl, rfl, rfl, rfl⟩
/-- An INIT's issue; each case in which execAt is exec; each probe byte, the two tags and the bytes on either side of
them. -/
theorem witness_InitProbeDecides :
    ((fresh [.quiet]).busy = false ∧ (fresh [.quiet]).initialized = false ∧ (fresh [.quiet]).inbox = [.quiet]) ∧
    ((Instr.read 0).op ≠ .init ∧ (probing (.chan 0 .vread .rChk) []).busy = true) ∧
    (∀ b : Byte, (probing (.chan 0 .vread .rResp) [ok b]).busy = true ∧
      (probing (.chan 0 .vread .rResp) [ok b]).seq = .chan 0 .vread .rResp ∧
      (probing (.chan 0 .vread .rResp) [ok b]).inbox = [ok b]) ∧
    ∀ b ∈ [(0x3D : Byte), 0x40, 0xBE], b ≠ 0x3E ∧ b ≠ 0x3F :=
  ⟨⟨rfl, rfl, rfl⟩, ⟨by decide, rfl⟩, fun _ => ⟨rfl, rfl, rfl⟩, by decide⟩
theorem witness_InitRunsToItsFinish : ∀ v ∈ [Variant.a, .b],
    let es := .quiet :: rdAnswers (match v with | .a => 0x3E | .b => 0x3F) ++ mdAnswers 1 ++ mdAnswers 2 ++
      mdAnswers 3 ++ mdAnswers 4 ++ wrAnswers ++ mdAnswers 5 ++ mdAnswers 6 ++ []
    (fresh es).busy = false ∧ (fresh es).initialized = false ∧ (fresh es).inbox = es := fun _ _ => ⟨rfl, rfl, rfl⟩
/-- Both ways INIT can fail after its probe. -/
theorem witness_FailedInitMayBeRetried (c : TErr) :
    ((probing (.chan 1 .vmodify .rTxs) [.abort, .quiet]).busy = true ∧ Phase.rTxs.isSleep = true ∧
      (probing (.chan 1 .vmodify .rTxs) [.abort, .quiet]).seq = .chan (0 + 1) .vmodify .rTxs ∧
      (probing (.chan 1 .vmodify .rTxs) [.abort, .quiet]).initialized = false) ∧
    ((probing (.chan 7 .vmodify .wData) [err c, .quiet]).busy = true ∧ Phase.wData.isSleep = false ∧
      (probing (.chan 7 .vmodify .wData) [err c, .quiet]).seq = .chan (6 + 1) .vmodify .wData ∧
      (probing (.chan 7 .vmodify .wData) [err c, .quiet]).initialized = false) :=
  ⟨⟨rfl, rfl, rfl, rfl⟩, rfl, rfl, rfl, rfl⟩
theorem witness_TakeMeasRunsToItsFinish :
    let es := .quiet :: mdAnswers 0x12 ++ mdAnswers 0x10 ++ rdAnswers 0x1C ++ [.timer] ++ rdAnswers 0x1E ++ []
    (ready es).busy = false ∧ (ready es).initialized = true ∧ (0x1C#8).getLsbD 1 = false ∧ (0x1E#8).getLsbD 1 = true ∧
    (ready es).inbox = es := ⟨rfl, rfl, rfl, rfl, rfl⟩
/-- Each clause of MeasurementStateMachine, in each of the two commands. -/
theorem witness_MeasurementStateMachine :
    (running .takeMeasIllum (.chan 0 .vmodify .wData) [ok 0]).seq = .chan 0 .vmodify .wData ∧
    (∀ x ∈ [(Instr.takeMeas, 0), (.takeMeasIllum, 1)],
      (x.1 = .takeMeas ∧ x.2 = 0 ∨ x.1 = .takeMeasIllum ∧ x.2 = 1) ∧
      (running x.1 (.chan x.2 .vmodify .wData) [ok 0]).seq = .chan x.2 .vmodify .wData ∧
      (running x.1 (.chan (x.2 + 1) .vmodify .wData) [ok 0]).seq = .chan (x.2 + 1) .vmodify .wData ∧
      (running x.1 (.chan (x.2 + 2) .vread .rResp) [ok 0xFD]).inbox = [ok 0xFD] ∧
      (running x.1 (.chan (x.2 + 2) .vread .rResp) [ok 0x02]).inbox = [ok 0x02] ∧
      (running x.1 (.daSleep (x.2 + 2)) [.timer]).inbox = [.timer] ∧
      (running x.1 (.daSleep (x.2 + 2)) [.timer]).busy = true) ∧
    (0xFD#8).getLsbD 1 = false ∧ (0x02#8).getLsbD 1 = true := by
  refine ⟨rfl, fun x hx => ⟨?_, rfl, rfl, rfl, rfl, rfl, rfl⟩, rfl, rfl⟩
  revert x
  decide
theorem witness_IllumRunsToItsFinish :
    let es := .quiet :: mdAnswers 0x00 ++ mdAnswers 0x12 ++ mdAnswers 0x10 ++ rdAnswers 0x1E ++ mdAnswers 0x08 ++ []
    (ready es).busy = false ∧ (ready es).initialized = true ∧ (0x1E#8).getLsbD 1 = true ∧ (ready es).inbox = es :=
  ⟨rfl, rfl, rfl, rfl⟩
/-- A transport error in the first and the last channel op before the cleanup, an abort of each kind of sleep. -/
theorem witness_IllumFailureStartsTheCleanup (c : TErr) :
    (running .takeMeasIllum (.chan 0 .vmodify .rChk) [err c]).request = some (.busRead 0x00) ∧
    (running .takeMeasIllum (.chan 3 .vread .rResp) [err c]).request = some (.busRead 0x02) ∧ 3 < 4 ∧
    (running .takeMeasIllum (.chan 2 .vmodify .wTx2s) [.abort]).seq = .chan 2 .vmodify .wTx2s ∧
    Phase.wTx2s.isSleep = true ∧ (running .takeMeasIllum (.daSleep 3) [.abort]).seq = .daSleep 3 :=
  ⟨rfl, rfl, by decide, rfl, rfl, rfl⟩
/-- Each clause of IllumReportsTheFirstFailure. -/
theorem witness_IllumReportsTheFirstFailure (c : TErr) :
    (running .takeMeasIllum (.chan 4 .vmodify .wData) [ok 0]).seq = .chan 4 .vmodify .wData ∧
    (running .takeMeasIllum (.chan 4 .vmodify .rChk) [err c]).request = some (.busRead 0x00) ∧
    (running .takeMeasIllum (.chan 4 .vmodify .rRxs) [.abort]).seq = .chan 4 .vmodify .rRxs ∧
    Phase.rRxs.isSleep = true := ⟨rfl, rfl, rfl, rfl⟩
/-- The cleanup's last write ends the command. -/
theorem witness_IllumEndsOnlyFromTheCleanup :
    position .takeMeasIllum (running .takeMeasIllum (.chan 4 .vmodify .wData) [ok 0]).seq ∧
    goes (exec .takeMeasIllum (running .takeMeasIllum (.chan 4 .vmodify .wData) [ok 0])) (fun t => !t.busy) = true :=
  ⟨⟨rfl, rfl⟩, by decide⟩
theorem witness_ReadCalRunsToItsFinish :
    let es := .quiet :: ((List.finRange 24).map fun n : Fin 24 => rdAnswers (BitVec.ofNat 8 n.val)).flatten ++ []
    (ready es).busy = false ∧ (ready es).initialized = true ∧ (ready es).inbox = es := ⟨rfl, rfl, rfl⟩
/-- A step that does not end its command. -/
theorem witness_RunningCommandLeavesHostRegisters :
    (running .softReset (.chan 0 .vmodify .wData) [ok 0]).busy = true ∧
    goes (exec .softReset (running .softReset (.chan 0 .vmodify .wData) [ok 0])) (fun t => t.busy) = true := by decide
/-- The clause's premises for a lookup, at its issue and at its position. -/
theorem witness_DatapathFrame :
    (ready [.quiet]).busy = false ∧ position .getName (running .getName .lookup [.quiet]).seq ∧
    Instr.readTemp.op ∈ [Op.read, .write, .setItime, .readCal, .readTemp, .getName, .getWavelengths] :=
  ⟨rfl, .inl rfl, by decide⟩
/-- The probe's response changes VARIANT; so does an engine reset. -/
theorem witness_VariantOnlyByTheProbe :
    PositionInv (probing (.chan 0 .vread .rResp) [ok 0x3F]) ∧
    goes (step (probing (.chan 0 .vread .rResp) [ok 0x3F])) (fun t => decide (t.variant ≠ none)) = true ∧
    PositionInv (ready [.reset]) ∧
    goes (step (ready [.reset])) (fun t => decide (t.variant ≠ some .a)) = true :=
  ⟨fun _ => ⟨.init 3 1 0x10, rfl, rfl, rfl⟩, by decide, fun h => by simp [ready, State.reset] at h, by decide⟩
/-- INIT's last write changes INITIALIZED; so does an engine reset. -/
theorem witness_InitializedOnlyByInit :
    goes (step (probing (.chan 7 .vmodify .wData) [ok 0])) (fun t => t.initialized) = true ∧
    goes (step (ready [.reset])) (fun t => !t.initialized) = true := by decide
/-- A transport error with code 0 changes a TERR of 3; so does an engine reset. -/
theorem witness_TerrOnlyWithTransportError :
    (∃ t, step { running .readCal (.chan 0 .vread .rChk) [err 0] with terr := 3 } = .next t ∧ t.terr ≠ 3) ∧
    goes (step { ready [.reset] with terr := 3 }) (fun t => decide (t.terr ≠ 3)) = true := by
  refine ⟨⟨_, rfl, ?_⟩, by decide⟩
  show ((0 : TErr).setWidth 32) ≠ 3
  simp
/-- A READ's response changes RES_BYTE, a GET_WAVELENGTHS RES_WORD. -/
theorem witness_ResultsOnlyAtAnOkFinish :
    goes (step (running (.read 0x04) (.chan 0 .vread .rResp) [ok 0x2C])) (fun t => decide (t.resByte ≠ 0)) = true ∧
    (running (.read 0x04) (.chan 0 .vread .rResp) [ok 0x2C]).peek ≠ .reset ∧
    goes (step (running .getWavelengths .lookup [.quiet])) (fun t => decide (t.resWord ≠ State.reset.resWord)) = true ∧
    (running .getWavelengths .lookup [.quiet]).peek ≠ .reset := by decide
theorem witness_CombineIsBitwise : (0 < 8) ∧ (7 < 8) := by decide
/-- The reference device with something stored, a clean channel, and the two words. -/
theorem witness_WriteThenReadGivesTheByteBack :
    let b : Bench :=
      { eng := ready [], words := [encode (.write 0x05 0x32), encode (.read 0x05)], aborts := []
        dev := { cells := [(1, 0x3E), (5, 0x10)], resp := none, want := none, cnt := none
                 measureReads := none, daClearHonoured := true, resetting := false } }
    (0x05 : VAddr) ≠ 0x04 ∧ b.eng.busy = false ∧ b.eng.initialized = true ∧ cellsWf b.dev.cells = true ∧
    b.dev.CleanChannel ∧ b.words = [encode (.write 0x05 0x32), encode (.read 0x05)] ∧ b.Launch :=
  ⟨by decide, rfl, rfl, rfl, ⟨rfl, rfl⟩, rfl, ⟨rfl, rfl⟩, ⟨rfl, rfl⟩, rfl⟩

end Sys2Proof.Tests
end

section
/-! Proof of O39: INIT's probe (00_scope R7, 42_controller R201, 60_exceptions R283), and the rules it needs about one
event of a running command. -/
namespace Sys2Proof.Machine

/-! ## One scripted event -/

/-- Taking a scripted event leaves the later ones. -/
theorem State.pop_cons {s : State} {e : Event} {rest : List Event} (h : s.inbox = e :: rest) :
    s.pop = { s with inbox := rest, tick := s.tick + 1 } := by
  simp [State.pop, h]

/-- A transaction in flight that is answered with a byte is performed, and its phase is left (R171). -/
theorem advance_of_ok (r : Rule) {s : State} {k : Nat} {op : OpKind} {ph : Phase} {b : Byte}
    (hq : s.seq = .chan k op ph) (hp : ph.isSleep = false) (he : s.peek = .transport (.ok b)) :
    advance r s = afterPhase r k op ph b (s.pop.transact b ph) := by
  simp [advance, xferStep, hq, hp, he]

/-- The response byte of a VRead, or of any channel op but VModify, hands over to the command's rule. -/
theorem afterPhase_rResp (r : Rule) (k : Nat) {op : OpKind} (b : Byte) (s : State) (h : op ≠ .vmodify) :
    afterPhase r k op .rResp b s = r.after k s := by
  simp [afterPhase, Phase.next, h]

/-- A running VRead's response step: VD takes the byte and the command's rule goes on. -/
theorem exec_vread_response (i : Instr) {s : State} {k : Nat} {b : Byte} {rest : List Event} (hb : s.busy = true)
    (hq : s.seq = .chan k .vread .rResp) (hi : s.inbox = .transport (.ok b) :: rest) :
    exec i s = .next ((ruleOf i).after k (s.pop.gotResponse b)) := by
  rw [exec_busy hb, advance_of_ok _ hq rfl (State.peek_cons hi), afterPhase_rResp _ _ _ _ (by decide)]
  rfl

/-! ## INIT -/

/-- INIT passes its gate exactly while INITIALIZED = 0 (R273). -/
theorem gateInit_eq_none {s : State} : gateInit s = none ↔ s.initialized = false := by
  simp [gateInit]

/-- A command whose gate lets it pass is accepted, and its rule begins (R274). -/
theorem issue_of_gate_none {gate : State → Option Status} (i : Instr) (r : Rule) {s : State} (h : gate s = none) :
    issue gate i r s = r.start (accept i (clearForIssue s.pop)) := by
  simp [issue, h]

/-- While the engine is idle, INIT at any PROBE_ADDR is issued. -/
theorem execAt_init_idle (probe : VAddr) (mode gain : BitVec 2) (itime : Byte) {s : State} (h : s.busy = false) :
    execAt probe (.init mode gain itime) s =
      .next (issue gateInit (.init mode gain itime) (initRule probe mode gain itime) s) := by
  simp [execAt, command, h]

/-- A byte that is no variant's tag is unsupported (R150). -/
theorem variantOf_eq_none {b : Byte} (ha : b ≠ 0x3E) (hb : b ≠ 0x3F) : variantOf b = none :=
  (if_neg ha).trans (if_neg hb)

/-- After a probe that read a variant's tag, INIT records the variant and begins the bulb-current modify (R201). -/
theorem initAfter_probe_of_variant (mode gain : BitVec 2) (itime : Byte) {s : State} {v : Variant}
    (h : variantOf s.vd = some v) :
    initAfter mode gain itime 0 s =
      startModify 1 Config.vLedControl mAndBulbCur (mOrBulbCur 0) { s with variant := some v } := by
  simp [initAfter, h]

/-- After a probe that read any other byte, INIT finishes with UNSUPPORTED_DEVICE (R283). -/
theorem initAfter_probe_of_none (mode gain : BitVec 2) (itime : Byte) {s : State} (h : variantOf s.vd = none) :
    initAfter mode gain itime 0 s = finish .unsupportedDevice s := by
  simp [initAfter, h]

/-- The acceptance of an INIT begins the VRead of PROBE_ADDR, at every PROBE_ADDR. -/
theorem execAt_init_accepts (probe : VAddr) (mode gain : BitVec 2) (itime : Byte) {s : State} {e : Event}
    {rest : List Event} (hb : s.busy = false) (hn : s.initialized = false) (hi : s.inbox = e :: rest) :
    execAt probe (.init mode gain itime) s = .next { s with
      busy := true, done := false, resultValid := false, resultWords := false, cleanupFailed := false
      cmdl := encode (.init mode gain itime), va := probe, seq := .chan 0 .vread .rChk
      inbox := rest, tick := s.tick + 1 } := by
  rw [execAt_init_idle probe mode gain itime hb, issue_of_gate_none _ _ (gateInit_eq_none.mpr hn), State.pop_cons hi]
  rfl

/-- A probe byte that is a variant's tag records VARIANT and begins the bulb-current modify of led-control. -/
theorem exec_init_probe_of_variant (mode gain : BitVec 2) (itime : Byte) {s : State} {b : Byte} {v : Variant}
    {rest : List Event} (hb : s.busy = true) (hq : s.seq = .chan 0 .vread .rResp)
    (hi : s.inbox = .transport (.ok b) :: rest) (hv : variantOf b = some v) :
    exec (.init mode gain itime) s = .next { s with
      variant := some v
      va := 0x07, mand := 0xCF, mor := 0x00, seq := .chan 1 .vmodify .rChk, vd := b, xbuf := b
      trace := .read b :: s.trace, inbox := rest, tick := s.tick + 1 } := by
  have goesOn := initAfter_probe_of_variant mode gain itime (s := s.pop.gotResponse b) hv
  rw [exec_vread_response _ hb hq hi, ruleOf, initRule_after, goesOn, State.pop_cons hi]
  rfl

/-- Any other probe byte ends the command with UNSUPPORTED_DEVICE. -/
theorem exec_init_probe_of_none (mode gain : BitVec 2) (itime : Byte) {s : State} {b : Byte}
    {rest : List Event} (hb : s.busy = true) (hq : s.seq = .chan 0 .vread .rResp)
    (hi : s.inbox = .transport (.ok b) :: rest) (hv : variantOf b = none) :
    exec (.init mode gain itime) s = .next { s with
      lastStatus := .unsupportedDevice, busy := false, done := true, measAwaiting := false, settling := false
      seq := .idle, vd := b, xbuf := b
      trace := .read b :: s.trace, inbox := rest, tick := s.tick + 1 } := by
  have ends := initAfter_probe_of_none mode gain itime (s := s.pop.gotResponse b) hv
  rw [exec_vread_response _ hb hq hi, ruleOf, initRule_after, ends, State.pop_cons hi]
  rfl

/-- Settles O39: the acceptance at any PROBE_ADDR, `execAt_eq` for every other step, and the response of the probe by
what VARIANT_OF says of its byte. -/
theorem initProbeDecides : Obligations.InitProbeDecides := by
  unfold Obligations.InitProbeDecides
  refine ⟨?acceptance, ?elsewhere, ?response⟩
  case acceptance =>
    intro probe mode gain itime s e rest hb hn hi
    exact execAt_init_accepts probe mode gain itime hb hn hi
  case elsewhere =>
    intro probe i s h
    exact execAt_eq h
  case response =>
    intro mode gain itime s b rest hb hq hi
    refine ⟨?tag, ?other⟩
    case tag =>
      rintro (rfl | rfl)
      · exact exec_init_probe_of_variant mode gain itime hb hq hi (v := .a) rfl
      · exact exec_init_probe_of_variant mode gain itime hb hq hi (v := .b) rfl
    case other =>
      intro ha hb'
      exact exec_init_probe_of_none mode gain itime hb hq hi (variantOf_eq_none ha hb')

end Sys2Proof.Machine
end

section
/-! The encoder and the decoder agree (30_encoding R121): acceptance latches `encode i`, so CMDL decodes to `i`. -/
namespace Sys2Proof

/-- The encoding of a command is a word of its row (R120). -/
theorem encode_matchesRow (i : Instr) : fieldOp (encode i) = i.op.code ∧ encode i &&& i.op.mask = i.op.matchWord := by
  have row : Laws.EncodeMatchesRow.Statement i := by
    cases i with
    | read a => exact Laws.EncodeMatchesRow.read a
    | write a v => exact Laws.EncodeMatchesRow.write a v
    | modify a mAnd mOr => exact Laws.EncodeMatchesRow.modify a mAnd mOr
    | init mode gain itime => exact Laws.EncodeMatchesRow.init mode gain itime
    | setMode mode => exact Laws.EncodeMatchesRow.setMode mode
    | setGain gain => exact Laws.EncodeMatchesRow.setGain gain
    | setItime itime => exact Laws.EncodeMatchesRow.setItime itime
    | setBulbCur level => exact Laws.EncodeMatchesRow.setBulbCur level
    | setBulb on => exact Laws.EncodeMatchesRow.setBulb on
    | setIndCur level => exact Laws.EncodeMatchesRow.setIndCur level
    | setInd on => exact Laws.EncodeMatchesRow.setInd on
    | softReset => exact Laws.EncodeMatchesRow.softReset
    | getName => exact Laws.EncodeMatchesRow.getName
    | getWavelengths => exact Laws.EncodeMatchesRow.getWavelengths
    | takeMeas => exact Laws.EncodeMatchesRow.takeMeas
    | takeMeasIllum => exact Laws.EncodeMatchesRow.takeMeasIllum
    | readCal => exact Laws.EncodeMatchesRow.readCal
    | readTemp => exact Laws.EncodeMatchesRow.readTemp
  obtain ⟨-, hop, -, hmask⟩ := row
  exact ⟨hop, hmask⟩

/-! The operand fields inside C (R112) -/

theorem fieldC10_wordOf (op : BitVec 5) (a : VAddr) (b c : Byte) :
    fieldC10 (wordOf op a b c) = c.extractLsb' 0 2 := by
  simp only [fieldC10, wordOf]
  ext j hj
  simp
  grind

theorem fieldC32_wordOf (op : BitVec 5) (a : VAddr) (b c : Byte) :
    fieldC32 (wordOf op a b c) = c.extractLsb' 2 2 := by
  simp only [fieldC32, wordOf]
  ext j hj
  simp
  grind

theorem fieldC0_wordOf (op : BitVec 5) (a : VAddr) (b c : Byte) : fieldC0 (wordOf op a b c) = c.extractLsb' 0 1 := by
  simp only [fieldC0, wordOf]
  ext j hj
  simp
  grind

/-- The operands read from an encoding are the ones it was built from (R112). -/
theorem instr_encode (i : Instr) : i.op.instr (encode i) = i := by
  have level (x : BitVec 2) : (0#6 ++ x : Byte).extractLsb' 0 2 = x := by revert x; decide
  have switch (x : BitVec 1) : (0#7 ++ x : Byte).extractLsb' 0 1 = x := by revert x; decide
  have gainMode (x y : BitVec 2) :
      (0#4 ++ x ++ y : Byte).extractLsb' 0 2 = y ∧ (0#4 ++ x ++ y : Byte).extractLsb' 2 2 = x := by
    revert x y; decide
  cases i <;>
    simp [Instr.op, Op.instr, encode, fieldC10_wordOf, fieldC32_wordOf, fieldC0_wordOf, level, switch, gainMode]

/-- Decoding an encoding gives the command back (R121). -/
theorem decode_encode (i : Instr) : decode (encode i) = .ok i := by
  obtain ⟨hop, hmask⟩ := encode_matchesRow i
  simp [decode, hop, hmask, instr_encode]

end Sys2Proof
end

section
/-! What one step of a running command can do to the registers (10_state), said once: it goes on or it ends. -/
namespace Sys2Proof.Machine

/-! ## What a running command leaves alone -/

/-- A state with the fields blanked that a command may write between its acceptance and its finish: the host registers
but VARIANT, MEAS_AWAITING and SETTLING stay (10_state R32 to R44). -/
def State.hostView (s : State) : State :=
  { s with
    variant := none, measAwaiting := false, settling := false, seq := .idle, va := 0, vd := 0, mand := 0, mor := 0
    xbuf := 0, sreg := 0, acc := 0, gk := 0, bj := 0, err1 := none, stage := State.reset.stage
    inbox := [], tick := 0, trace := [] }

/-- Two states with the same host view agree in whatever the view does not blank. -/
theorem hostView_congr {α : Type} (p : State → α) {u t : State} (h : t.hostView = u.hostView)
    (hp : ∀ s, p s.hostView = p s := by exact fun _ => rfl) : p t = p u := by
  rw [← hp t, h, hp]

/-- The rows whose commands make no VModify, and so write no mask (R36, R180). -/
def maskless : List Op := [.read, .write, .setItime, .readCal, .readTemp, .getName, .getWavelengths]

/-- The registers that a step of a command of row `op` leaves alone: those that only READ_CAL, TAKE_MEAS_ILLUM, a VModify
or INIT writes, where the row has none of it, and those that no command writes (10_state R36, R37, R44). -/
def State.untouched (op : Op) (s : State) : State :=
  { State.reset with
    acc := if op = .readCal then 0 else s.acc
    gk := if op = .readCal then 0 else s.gk
    bj := if op = .readCal then 0 else s.bj
    stage := if op = .readCal then State.reset.stage else s.stage
    err1 := if op = .takeMeasIllum then none else s.err1
    mand := if op ∈ maskless then s.mand else 0
    mor := if op ∈ maskless then s.mor else 0
    variant := if op = .init then none else s.variant
    hostOverrun := s.hostOverrun
    hostRd := s.hostRd }

/-- The flags of a running command: it is not idle, SETTLING is 1 only in the settle wait of SOFT_RESET, MEAS_AWAITING
only in a measurement (R51). -/
structure RunFlags (i : Instr) (s : State) : Prop where
  notIdle : s.seq ≠ .idle
  settling : s.settling = true → s.seq = .settle ∧ i = .softReset
  awaiting : s.measAwaiting = true → i = .takeMeas ∨ i = .takeMeasIllum

/-- Away from the settle wait, where SETTLING is 0, the flags survive a move that sets a flag only where it may be set. -/
theorem RunFlags.move {i : Instr} {u t : State} (h : RunFlags i u) (away : u.seq ≠ .settle) (notIdle : t.seq ≠ .idle)
    (settling : t.settling = true → u.settling = true ∨ t.seq = .settle ∧ i = .softReset)
    (awaiting : t.measAwaiting = true → u.measAwaiting = true ∨ i = .takeMeas ∨ i = .takeMeasIllum) :
    RunFlags i t where
  notIdle := notIdle
  settling c := (settling c).resolve_left fun c => away (h.settling c).1
  awaiting c := (awaiting c).elim h.awaiting id

/-! ## The two ways a step of a running command can go -/

/-- Command `i` goes from `u` to `t` and is still running. -/
structure Running (i : Instr) (u t : State) : Prop where
  host : t.hostView = u.hostView
  untouched : t.untouched i.op = u.untouched i.op
  atPosition : position i u.seq → position i t.seq
  flags : RunFlags i u → RunFlags i t

/-- Command `i` goes from `u` to `t` and has ended there (60_exceptions R276). -/
structure Ended (i : Instr) (u t : State) : Prop where
  busy : t.busy = false
  seq : t.seq = .idle
  done : t.done = true
  settling : t.settling = false
  awaiting : t.measAwaiting = false
  untouched : t.untouched i.op = u.untouched i.op
  initialized : t.initialized = u.initialized ∨ i.op = .init ∧ t.initialized = true ∧ t.lastStatus = .ok
  terr : t.terr = u.terr ∨ t.lastStatus = .transportError
  resByte : t.resByte = u.resByte ∨
    ((∃ a, i = .read a) ∨ i = .readTemp ∨ i = .getName) ∧ t.lastStatus = .ok ∧ t.resultValid = true ∧
      t.resultWords = false
  resWord : t.resWord = u.resWord ∨
    (i = .readCal ∨ i = .getWavelengths) ∧ t.lastStatus = .ok ∧ t.resultValid = true ∧ t.resultWords = true
  resultValid : t.resultValid = u.resultValid ∨ t.lastStatus = .ok

/-- What a step of command `i` can do: go on or end. -/
def Effect (i : Instr) (u t : State) : Prop := Running i u t ∨ Ended i u t

theorem Running.refl (i : Instr) (u : State) : Running i u u := ⟨rfl, rfl, id, id⟩

/-- A step away from the settle wait that takes the command to a position of its rule goes on. -/
theorem Running.toPosition {i : Instr} {u t : State} (away : u.seq ≠ .settle) (host : t.hostView = u.hostView)
    (untouched : t.untouched i.op = u.untouched i.op) (pos : position i t.seq)
    (settling : t.settling = true → u.settling = true ∨ t.seq = .settle := by exact .inl)
    (awaiting : t.measAwaiting = true → u.measAwaiting = true ∨ i = .takeMeas ∨ i = .takeMeasIllum := by exact .inl) :
    Running i u t where
  host := host
  untouched := untouched
  atPosition _ := pos
  flags h := by
    refine h.move away (fun c => ?_) (fun c => (settling c).imp_right fun hq => ⟨hq, ?_⟩) awaiting
    · rw [c] at pos
      exact pos
    · rw [hq] at pos
      exact pos

/-! ## What the rules do at their finish (R276) -/

/-- The registers that nothing but the finish of a command writes. -/
def State.results (s : State) : Bool × Word × Byte × Vector Word 6 × Bool :=
  (s.initialized, s.terr, s.resByte, s.resWord, s.resultValid)

theorem State.results_eq_iff {u v : State} : v.results = u.results ↔
    v.initialized = u.initialized ∧ v.terr = u.terr ∧ v.resByte = u.resByte ∧ v.resWord = u.resWord ∧
      v.resultValid = u.resultValid := by
  simp [State.results]

/-- A finish without a result. -/
theorem Ended.finish {i : Instr} {u v : State} (st : Status) (same : v.results = u.results)
    (untouched : v.untouched i.op = u.untouched i.op) : Ended i u (finish st v) := by
  obtain ⟨initialized, terr, resByte, resWord, resultValid⟩ := State.results_eq_iff.mp same
  exact ⟨rfl, rfl, rfl, rfl, rfl, untouched, .inl initialized, .inl terr, .inl resByte, .inl resWord,
    .inl resultValid⟩

/-- The finish of a command that failed. -/
theorem Ended.finishFail {i : Instr} {u v : State} (f : Failure) (same : v.results = u.results)
    (untouched : v.untouched i.op = u.untouched i.op) : Ended i u (finishFail f v) := by
  obtain ⟨initialized, terr, resByte, resWord, resultValid⟩ := State.results_eq_iff.mp same
  cases f with
  | transport e =>
    exact ⟨rfl, rfl, rfl, rfl, rfl, untouched, .inl initialized, .inr rfl, .inl resByte, .inl resWord,
      .inl resultValid⟩
  | aborted => exact .finish .aborted same untouched

/-- The finish of a command whose result is a byte (R39). -/
theorem Ended.finishByte {i : Instr} (u : State) (b : Byte)
    (h : (∃ a, i = .read a) ∨ i = .readTemp ∨ i = .getName) :
    Ended i u (finishByte b u) :=
  ⟨rfl, rfl, rfl, rfl, rfl, rfl, .inl rfl, .inl rfl, .inr ⟨h, rfl, rfl, rfl⟩, .inl rfl, .inr rfl⟩

/-- The finish of a command whose result is words (R39). -/
theorem Ended.finishWords {i : Instr} {u v : State} (ws : Vector Word 6) (h : i = .readCal ∨ i = .getWavelengths)
    (same : v.results = u.results) (untouched : v.untouched i.op = u.untouched i.op) :
    Ended i u (finishWords ws v) := by
  obtain ⟨initialized, terr, resByte, _, _⟩ := State.results_eq_iff.mp same
  exact ⟨rfl, rfl, rfl, rfl, rfl, untouched, .inl initialized, .inl terr, .inl resByte,
    .inr ⟨h, rfl, rfl, rfl⟩, .inr rfl⟩

/-! ## What each part of a command's rule does -/

/-- INIT after a channel op begins the next one or ends (R201). -/
theorem initAfter_effect (mode gain : BitVec 2) (itime : Byte) (k : Nat) {u : State} (away : u.seq ≠ .settle) :
    Effect (.init mode gain itime) u (initAfter mode gain itime k u) := by
  unfold initAfter
  split
  · split
    · exact .inr (.finish _ rfl rfl)
    · exact .inl (.toPosition away rfl rfl ⟨rfl, rfl⟩)
  case h_8 =>
    exact .inr ⟨rfl, rfl, rfl, rfl, rfl, rfl, .inr ⟨rfl, rfl, rfl⟩, .inl rfl, .inl rfl, .inl rfl, .inl rfl⟩
  all_goals exact .inl (.toPosition away rfl rfl ⟨rfl, rfl⟩)

/-- The positions at which MeasureBody goes on, its channel ops being `base`, `base + 1` and `base + 2` (R241). -/
theorem measure_positions {i : Instr} {base : Nat} (h : i = .takeMeas ∧ base = 0 ∨ i = .takeMeasIllum ∧ base = 1) :
    position i (.chan (base + 1) .vmodify .rChk) ∧ position i (.chan (base + 2) .vread .rChk) ∧
      position i (.daSleep (base + 2)) := by
  rcases h with ⟨rfl, rfl⟩ | ⟨rfl, rfl⟩
  · exact ⟨⟨rfl, rfl⟩, ⟨rfl, rfl⟩, .inl ⟨rfl, rfl⟩⟩
  · exact ⟨⟨rfl, rfl⟩, ⟨rfl, rfl⟩, .inr ⟨rfl, rfl⟩⟩

/-- MeasureBody after one of its channel ops begins the next, polls, sleeps, or does what its command does once
data-available was seen (R241). -/
theorem measureAfter_effect {i : Instr} {base : Nat} {exit : State → State} (k : Nat) {u : State}
    (away : u.seq ≠ .settle) (h : i = .takeMeas ∧ base = 0 ∨ i = .takeMeasIllum ∧ base = 1)
    (hexit : Effect i u (exit { u with measAwaiting := false })) : Effect i u (measureAfter base exit k u) := by
  obtain ⟨oneshot, poll, sleep⟩ := measure_positions h
  unfold measureAfter
  split
  · have awaits : i = .takeMeas ∨ i = .takeMeasIllum := h.imp And.left And.left
    refine .inl (.toPosition away rfl ?_ oneshot (awaiting := fun _ => .inr awaits))
    rcases awaits with rfl | rfl <;> rfl
  · split
    · exact .inl (.toPosition away rfl rfl poll)
    · split
      · exact hexit
      · exact .inl (.toPosition away rfl rfl sleep)

/-- TAKE_MEAS_ILLUM ends with OK or with its first failure (R245). -/
theorem illumEnd_ended {u v : State} (same : v.results = u.results)
    (untouched : v.untouched .takeMeasIllum = u.untouched .takeMeasIllum) : Ended .takeMeasIllum u (illumEnd v) := by
  unfold illumEnd
  split
  · exact .finish _ same untouched
  · exact .finishFail _ same untouched

/-- TAKE_MEAS_ILLUM after a channel op: the body, the cleanup, or the end (R245). -/
theorem illumAfter_effect (k : Nat) {u : State} (away : u.seq ≠ .settle) :
    Effect .takeMeasIllum u (illumAfter k u) := by
  unfold illumAfter
  split
  · exact .inl (.toPosition away rfl rfl ⟨rfl, rfl⟩)
  · split
    · exact measureAfter_effect k away (.inr ⟨rfl, rfl⟩)
        (.inl (.toPosition away rfl rfl ⟨rfl, rfl⟩ (awaiting := by simp [illumCleanup])))
    · exact .inr (illumEnd_ended rfl rfl)

/-- A failure of TAKE_MEAS_ILLUM begins its cleanup or, in the cleanup, ends it (R246). -/
theorem illumFail_effect (k : Nat) (f : Failure) {u : State} (away : u.seq ≠ .settle) :
    Effect .takeMeasIllum u (illumFail k f u) := by
  unfold illumFail
  split
  · exact .inl (.toPosition away rfl rfl ⟨rfl, rfl⟩ (awaiting := by simp [illumCleanup]))
  · exact .inr (illumEnd_ended rfl rfl)

/-- READ_CAL after a byte reads the next one or ends (R250). -/
theorem calAfter_effect {u : State} (away : u.seq ≠ .settle) : Effect .readCal u (calAfter u) := by
  rcases calAfter_cases u with ⟨_, h⟩ | ⟨_, _, h⟩ | ⟨_, _, h⟩ <;> rw [h]
  · exact .inl (.toPosition away rfl rfl ⟨rfl, rfl⟩)
  · exact .inl (.toPosition away rfl rfl ⟨rfl, rfl⟩)
  · exact .inr (.finishWords _ (.inl rfl) rfl rfl)

/-- What a rule does after a channel op. -/
theorem ruleOf_after_effect (i : Instr) (k : Nat) {u : State} (away : u.seq ≠ .settle) :
    Effect i u ((ruleOf i).after k u) := by
  cases i with
  | read a => exact .inr (.finishByte u _ (.inl ⟨a, rfl⟩))
  | readTemp => exact .inr (.finishByte u _ (.inr (.inl rfl)))
  | init mode gain itime => exact initAfter_effect mode gain itime k away
  | softReset => exact .inl (.toPosition away rfl rfl rfl (settling := fun _ => .inr rfl))
  | getName => exact .inl (.refl _ u)
  | getWavelengths => exact .inl (.refl _ u)
  | takeMeas => exact measureAfter_effect k away (.inl ⟨rfl, rfl⟩) (.inr (.finish _ rfl rfl))
  | takeMeasIllum => exact illumAfter_effect k away
  | readCal => exact calAfter_effect away
  | _ => exact .inr (.finish _ rfl rfl)

/-- What a rule does on a failure. -/
theorem ruleOf_fail_effect (i : Instr) (k : Nat) (f : Failure) {u : State} (away : u.seq ≠ .settle) :
    Effect i u ((ruleOf i).fail k f u) := by
  by_cases h : i = .takeMeasIllum
  · subst h
    exact illumFail_effect k f away
  · rw [ruleOf_fail h]
    exact .inr (.finishFail f rfl rfl)

/-- What a rule does after a data-available sleep: a measurement polls again, no other command sleeps so. -/
theorem ruleOf_wake_effect (i : Instr) {k : Nat} {u : State} (hq : u.seq = .daSleep k) :
    Effect i u ((ruleOf i).wake k u) := by
  have away : u.seq ≠ .settle := by simp [hq]
  have poll (hm : i = .takeMeas ∨ i = .takeMeasIllum) : Running i u (measurePoll k u) :=
    { host := rfl
      untouched := rfl
      atPosition := by
        rw [hq]
        rintro (⟨rfl, rfl⟩ | ⟨rfl, rfl⟩) <;> exact ⟨rfl, rfl⟩
      flags := fun h => h.move away (by simp [measurePoll]) .inl .inl }
  cases i with
  | takeMeas => exact .inl (poll (.inl rfl))
  | takeMeasIllum => exact .inl (poll (.inr rfl))
  | _ => exact .inl (.refl _ u)

/-- What a rule does after the settle event: SOFT_RESET ends (R215). -/
theorem ruleOf_settled_effect (i : Instr) (u : State) : Effect i u ((ruleOf i).settled u) := by
  cases i with
  | softReset => exact .inr (.finish _ rfl rfl)
  | _ => exact .inl (.refl _ u)

/-- What a rule does at a finish step of its own (R220, R221). -/
theorem ruleOf_look_effect (i : Instr) (u : State) : Effect i u ((ruleOf i).look u) := by
  cases i with
  | getName => exact .inr (.finishByte u _ (.inr (.inr rfl)))
  | getWavelengths => exact .inr (.finishWords _ (.inr rfl) rfl rfl)
  | _ => exact .inl (.refl _ u)

/-! ## One step of a running command -/

/-- A state with the fields blanked that taking an event, a transaction and the trace write. -/
def State.beforeEvent (s : State) : State :=
  { s with vd := 0, xbuf := 0, sreg := 0, inbox := [], tick := 0, trace := [] }

theorem effect_beforeEvent {i : Instr} {s t : State} : Effect i s.beforeEvent t ↔ Effect i s t := by
  have flags : RunFlags i s.beforeEvent ↔ RunFlags i s := ⟨fun h => { h with }, fun h => { h with }⟩
  have running : Running i s.beforeEvent t ↔ Running i s t :=
    ⟨fun h => { h with flags := fun f => h.flags (flags.mpr f) },
      fun h => { h with flags := fun f => h.flags (flags.mp f) }⟩
  have ended : Ended i s.beforeEvent t ↔ Ended i s t := ⟨fun h => { h with }, fun h => { h with }⟩
  exact or_congr running ended

/-- What a command does after its event was taken, it does from the state before that event. -/
theorem Effect.ofEvent {i : Instr} {s u t : State} (h : Effect i u t) (hu : u.beforeEvent = s.beforeEvent) :
    Effect i s t := by
  rw [← effect_beforeEvent, ← hu, effect_beforeEvent]
  exact h

/-- The next phase of a channel op is in the same half of the table of R171: a VRead's or a VWrite's. -/
theorem ofRead_next {ph ph' : Phase} {b : Byte} (h : ph.next b = some ph') : ph'.ofRead = ph.ofRead := by
  cases ph <;> simp only [Phase.next, Option.some.injEq, reduceCtorEq] at h <;> subst h
  all_goals first | rfl | (split <;> rfl)

/-- The next phase of a channel op is one that the op goes through (R171). -/
theorem hasPhase_next {op : OpKind} {ph ph' : Phase} {b : Byte} (h : ph.next b = some ph')
    (ho : op.hasPhase ph = true) : op.hasPhase ph' = true := by
  cases op with
  | vread => exact (ofRead_next h).trans ho
  | vwrite => simpa [OpKind.hasPhase, ofRead_next h] using ho
  | vmodify => rfl

/-- A channel op goes on with its next phase. -/
theorem Running.nextPhase {i : Instr} {u : State} {k : Nat} {op : OpKind} {ph ph' : Phase} {b : Byte}
    (hq : u.seq = .chan k op ph) (hn : ph.next b = some ph') : Running i u (u.goto (.chan k op ph')) where
  host := rfl
  untouched := rfl
  atPosition := by
    rw [hq]
    exact fun ⟨ho, hp⟩ => ⟨ho, hasPhase_next hn hp⟩
  flags h := h.move (by simp [hq]) (by simp) .inl .inl

/-- VModify goes on with its write. -/
theorem Running.modifyWrite {i : Instr} {u : State} {k : Nat} {ph : Phase} (hq : u.seq = .chan k .vmodify ph) :
    Running i u (modifyWrite k u) where
  host := rfl
  untouched := rfl
  atPosition := by
    rw [hq]
    exact fun ⟨ho, _⟩ => ⟨ho, rfl⟩
  flags h := h.move (by simp [hq]) (by simp) .inl .inl

theorem transact_beforeEvent (s : State) (b : Byte) (ph : Phase) :
    (s.pop.transact b ph).beforeEvent = s.beforeEvent := by
  rw [State.transact_frame]
  rfl

/-- Everything one step of a running command can do to the registers: the command goes on or it ends. -/
theorem advance_effect (i : Instr) (s : State) : Effect i s (advance (ruleOf i) s) := by
  apply advance_elim (P := Effect i s)
  case wait => exact Effect.ofEvent (u := s.pop) (.inl (.refl i _)) rfl
  case next =>
    intro k op ph b ph' hq _ _ hn
    have seq : (s.pop.transact b ph).seq = .chan k op ph := by rw [State.transact_frame]; exact hq
    exact Effect.ofEvent (.inl (.nextPhase seq hn)) (transact_beforeEvent s b ph)
  case modifyRead => exact fun k b hq _ => Effect.ofEvent (u := s.pop.gotResponse b) (.inl (.modifyWrite hq)) rfl
  case response =>
    intro k op b hq _ _
    exact (ruleOf_after_effect i k (u := s.pop.gotResponse b) (by simp [hq])).ofEvent rfl
  case written =>
    intro k op b hq _
    exact (ruleOf_after_effect i k (u := s.pop.wrote s.vd) (by simp [hq])).ofEvent rfl
  case error =>
    intro k op ph e hq _ _
    exact (ruleOf_fail_effect i k _ (u := s.pop.log (.error e)) (by simp [hq])).ofEvent rfl
  case slept =>
    intro k op ph ph' hq _ _ hn
    exact Effect.ofEvent (u := s.pop.log .sleep) (.inl (.nextPhase hq hn)) rfl
  case aborted =>
    intro k op ph hq _ _
    exact (ruleOf_fail_effect i k _ (u := s.pop.log .sleepAborted) (by simp [hq])).ofEvent rfl
  case woken => exact fun k hq _ => (ruleOf_wake_effect i (u := s.pop.log .sleep) hq).ofEvent rfl
  case awaitAborted =>
    intro k hq _
    exact (ruleOf_fail_effect i k _ (u := s.pop.log .sleepAborted) (by simp [hq])).ofEvent rfl
  case settled => exact fun _ _ => (ruleOf_settled_effect i (s.pop.log .settle)).ofEvent rfl
  case look => exact fun _ => (ruleOf_look_effect i s.pop).ofEvent rfl

end Sys2Proof.Machine
end

section
/-! What an issue and one step of the machine do to the registers. -/
namespace Sys2Proof.Machine

/-! ## Issue -/

/-- The first position of a command's rule is one of its positions (R274). -/
theorem position_firstStep (i : Instr) : position i (firstStep i) := by
  cases i <;> first | exact ⟨rfl, rfl⟩ | exact .inl rfl | exact .inr rfl

theorem firstStep_ne_idle (i : Instr) : firstStep i ≠ .idle := by
  intro h
  have pos := position_firstStep i
  rw [h] at pos
  exact pos

/-- Command `i` goes from the accepted state `u` to `t`, where its rule begins (R274). -/
structure Started (i : Instr) (u t : State) : Prop where
  host : t.hostView = u.hostView
  untouched : t.untouched i.op = u.untouched i.op
  seq : t.seq = firstStep i
  variant : t.variant = u.variant
  settling : t.settling = u.settling
  awaiting : t.measAwaiting = u.measAwaiting

/-- Every rule begins at its first position. -/
theorem ruleOf_start (i : Instr) (u : State) : Started i u ((ruleOf i).start u) := by
  cases i <;> exact ⟨rfl, rfl, rfl, rfl, rfl, rfl⟩

/-- Issuing a command leaves what the command may not write, refused or accepted. -/
theorem issue_untouched (gate : State → Option Status) (i : Instr) (s : State) :
    (issue gate i (ruleOf i) s).untouched i.op = s.untouched i.op := by
  rcases issue_cases gate i (ruleOf i) s with ⟨st, _, h⟩ | ⟨_, h⟩ <;> rw [h]
  · rfl
  · exact (ruleOf_start i _).untouched

/-! ## The registers that few commands or none write -/

/-- What two states agree in, field by field, if they agree in what a row leaves alone. -/
theorem State.untouched_fields {op : Op} {s t : State} (h : t.untouched op = s.untouched op) :
    (op ≠ .readCal → t.acc = s.acc ∧ t.gk = s.gk ∧ t.bj = s.bj ∧ t.stage = s.stage) ∧
    (op ≠ .takeMeasIllum → t.err1 = s.err1) ∧ (op ∈ maskless → t.mand = s.mand ∧ t.mor = s.mor) ∧
    (op ≠ .init → t.variant = s.variant) ∧ t.hostOverrun = s.hostOverrun ∧ t.hostRd = s.hostRd := by
  have same {α : Type} (p : State → α) : p (t.untouched op) = p (s.untouched op) := congrArg p h
  refine ⟨fun ho => ⟨?_, ?_, ?_, ?_⟩, fun ho => ?_, fun ho => ⟨?_, ?_⟩, fun ho => ?_, same State.hostOverrun,
    same State.hostRd⟩
  · simpa [State.untouched, ho] using same State.acc
  · simpa [State.untouched, ho] using same State.gk
  · simpa [State.untouched, ho] using same State.bj
  · simpa [State.untouched, ho] using same State.stage
  · simpa [State.untouched, ho] using same State.err1
  · simpa [State.untouched, ho] using same State.mand
  · simpa [State.untouched, ho] using same State.mor
  · simpa [State.untouched, ho] using same State.variant

/-- One engine step of a command, its issue or a step of its rule, leaves what its row leaves alone. -/
theorem exec_untouched {i : Instr} {s t : State} (h : exec i s = .next t) : t.untouched i.op = s.untouched i.op := by
  cases hb : s.busy with
  | true =>
    obtain rfl : advance (ruleOf i) s = t := by simpa [exec_busy hb] using h
    exact (advance_effect i s).elim Running.untouched Ended.untouched
  | false =>
    obtain rfl : issue (gateOf i) i (ruleOf i) s = t := by simpa [exec_idle hb] using h
    exact issue_untouched _ i s

theorem Instr.op_eq_readCal {i : Instr} : i.op = .readCal ↔ i = .readCal := by
  cases i <;> simp [Instr.op]

theorem Instr.op_eq_init {i : Instr} : i.op = .init ↔ ∃ mode gain itime, i = .init mode gain itime := by
  cases i <;> simp [Instr.op]

theorem Instr.op_eq_takeMeasIllum {i : Instr} : i.op = .takeMeasIllum ↔ i = .takeMeasIllum := by
  cases i <;> simp [Instr.op]

/-! ## One step of the machine -/

/-- INITIALIZED, VARIANT, TERR and the result registers are kept by every step but a running command's and an engine
reset. -/
theorem step_cases_registers {s t : State} (h : step s = .next t) :
    (∃ i, s.busy = true ∧ decode s.cmdl = .ok i ∧ t = advance (ruleOf i) s) ∨
    (s.peek = .reset ∧ t = engineReset s.pop) ∨
    (t.initialized = s.initialized ∧ t.variant = s.variant ∧ t.terr = s.terr ∧ t.resByte = s.resByte ∧
      t.resWord = s.resWord) := by
  rcases step_cases h with ⟨i, hb, hd, _, _, rfl⟩ | ⟨i, w, _, _, _, rfl⟩ | ⟨e, w, _, _, _, rfl⟩ |
    ⟨w, _, _, rfl⟩ | ⟨off, w, _, _, rfl⟩ | ⟨hp, rfl⟩ | ⟨_, _, rfl⟩
  · exact .inl ⟨i, hb, hd, rfl⟩
  · refine .inr (.inr ?_)
    rcases issue_cases (gateOf i) i (ruleOf i) s with ⟨st, _, h⟩ | ⟨_, h⟩ <;> rw [h]
    · exact ⟨rfl, rfl, rfl, rfl, rfl⟩
    · obtain ⟨host, _, _, variant, _, _⟩ := ruleOf_start i (accept i (clearForIssue s.pop))
      exact ⟨(hostView_congr State.initialized host :), variant, (hostView_congr State.terr host :),
        (hostView_congr State.resByte host :), (hostView_congr State.resWord host :)⟩
  · exact .inr (.inr ⟨rfl, rfl, rfl, rfl, rfl⟩)
  · exact .inr (.inr ⟨rfl, rfl, rfl, rfl, rfl⟩)
  · exact .inr (.inr ⟨rfl, rfl, rfl, rfl, rfl⟩)
  · exact .inr (.inl ⟨hp, rfl⟩)
  · exact .inr (.inr ⟨rfl, rfl, rfl, rfl, rfl⟩)

/-- INIT after a channel op keeps VARIANT, but for a probe that read a variant's tag (R201). -/
theorem initAfter_variant (mode gain : BitVec 2) (itime : Byte) (k : Nat) (u : State) :
    (initAfter mode gain itime k u).variant = u.variant ∨
    k = 0 ∧ ∃ v, variantOf u.vd = some v ∧ (initAfter mode gain itime k u).variant = some v := by
  cases k with
  | zero =>
    cases hv : variantOf u.vd with
    | none => simp [initAfter_probe_of_none mode gain itime hv]
    | some v => simp [initAfter_probe_of_variant mode gain itime hv]
  | succ k =>
    refine .inl ?_
    unfold initAfter
    split
    · contradiction
    all_goals rfl

/-- The bytes that are a variant's tag (R150). -/
theorem variantOf_eq_some {b : Byte} {v : Variant} (h : variantOf b = some v) :
    b = 0x3E ∧ v = .a ∨ b = 0x3F ∧ v = .b := by
  unfold variantOf Config.tagA Config.tagB at h
  split at h
  next ha => exact .inl ⟨ha, (Option.some.inj h).symm⟩
  next =>
    split at h
    next hb => exact .inr ⟨hb, (Option.some.inj h).symm⟩
    next => contradiction

/-- A step of a running INIT that changes VARIANT is its probe's response with a variant's tag (R37, R201). -/
theorem advance_init_variant {mode gain : BitVec 2} {itime : Byte} {s : State}
    (hpos : position (.init mode gain itime) s.seq) :
    (advance (ruleOf (.init mode gain itime)) s).variant = s.variant ∨
    s.seq = .chan 0 .vread .rResp ∧ ∃ b v, s.peek = .transport (.ok b) ∧ variantOf b = some v ∧
      (advance (ruleOf (.init mode gain itime)) s).variant = some v := by
  have probeOp {k : Nat} {op : OpKind} {ph : Phase} (hq : s.seq = .chan k op ph) (hk : k = 0) :
      op = .vread ∧ ph.ofRead = true := by
    subst hk
    rw [hq] at hpos
    obtain ⟨ho, hp⟩ := hpos
    obtain rfl : OpKind.vread = op := Option.some.inj ho
    exact ⟨rfl, hp⟩
  apply advance_elim (P := fun t => t.variant = s.variant ∨ s.seq = .chan 0 .vread .rResp ∧
    ∃ b v, s.peek = .transport (.ok b) ∧ variantOf b = some v ∧ t.variant = some v)
  case next =>
    intro k op ph b ph' _ _ _ _
    rw [State.transact_frame]
    exact .inl rfl
  case response =>
    intro k op b hq _ hp
    rcases initAfter_variant mode gain itime k (s.pop.gotResponse b) with h | ⟨hk, v, hv, h⟩
    · exact .inl h
    · obtain ⟨rfl, _⟩ := probeOp hq hk
      exact .inr ⟨hk ▸ hq, b, v, hp, hv, h⟩
  case written =>
    intro k op b hq _
    rcases initAfter_variant mode gain itime k (s.pop.wrote s.vd) with h | ⟨hk, _⟩
    · exact .inl h
    · exact absurd (probeOp hq hk).2 (by decide)
  all_goals intros; exact .inl rfl

/-- What holds of VARIANT in a state of a running INIT (R51): recorded once INITIALIZED is set, and from the probe on. -/
structure Probed (s : State) : Prop where
  initialized : s.initialized = true → s.variant ≠ none
  pastProbe : ∀ k op ph, s.seq = .chan (k + 1) op ph → s.variant ≠ none

/-- INIT after a channel op is probed if it was. -/
theorem initAfter_probed (mode gain : BitVec 2) (itime : Byte) {k : Nat} {op : OpKind} {ph : Phase} {u : State}
    (hq : u.seq = .chan k op ph) (h : Probed u) : Probed (initAfter mode gain itime k u) := by
  cases k with
  | zero =>
    cases hv : variantOf u.vd with
    | none =>
      rw [initAfter_probe_of_none mode gain itime hv]
      exact ⟨h.initialized, by simp⟩
    | some v =>
      rw [initAfter_probe_of_variant mode gain itime hv]
      exact ⟨by simp, by simp⟩
  | succ k =>
    have recorded : (initAfter mode gain itime (k + 1) u).variant ≠ none := by
      rcases initAfter_variant mode gain itime (k + 1) u with same | ⟨c, _⟩
      · rw [same]
        exact h.pastProbe k op ph hq
      · exact absurd c (Nat.succ_ne_zero k)
    exact ⟨fun _ => recorded, fun _ _ _ _ => recorded⟩

/-- `Probed` stays where VARIANT and INITIALIZED do and no later channel op is entered. -/
theorem Probed.sameOp {s t : State} (h : Probed s) (variant : t.variant = s.variant)
    (initialized : t.initialized = s.initialized)
    (seq : ∀ k op ph, t.seq = .chan (k + 1) op ph → ∃ op ph, s.seq = .chan (k + 1) op ph) : Probed t where
  initialized := by
    rw [variant, initialized]
    exact h.initialized
  pastProbe k op ph hq := by
    obtain ⟨op', ph', hq'⟩ := seq k op ph hq
    rw [variant]
    exact h.pastProbe k op' ph' hq'

/-- A failure ends INIT, and it stays probed. -/
theorem Probed.finishFail {s u : State} (h : Probed s) (f : Failure) (variant : u.variant = s.variant)
    (initialized : u.initialized = s.initialized) : Probed (finishFail f u) := by
  cases f <;> exact h.sameOp variant initialized (by simp)

/-- A step of a running INIT keeps `Probed`. -/
theorem advance_init_probed (mode gain : BitVec 2) (itime : Byte) {s : State} (h : Probed s) :
    Probed (advance (ruleOf (.init mode gain itime)) s) := by
  have stays {k k' : Nat} {op op' op'' : OpKind} {ph ph' ph'' : Phase} (hq : s.seq = .chan k op ph)
      (hq' : Seq.chan k op' ph' = .chan (k' + 1) op'' ph'') : ∃ op ph, s.seq = .chan (k' + 1) op ph := by
    injection hq' with hk
    exact ⟨op, ph, hk ▸ hq⟩
  have ended (k : Nat) (f : Failure) (e : BusEvent) :
      Probed ((ruleOf (.init mode gain itime)).fail k f (s.pop.log e)) :=
    h.finishFail (u := s.pop.log e) f rfl rfl
  apply advance_elim (P := Probed)
  case wait => exact h.sameOp rfl rfl fun _ op ph hq => ⟨op, ph, hq⟩
  case next =>
    intro k op ph b ph' hq _ _ _
    rw [State.transact_frame]
    exact h.sameOp rfl rfl fun _ _ _ hq' => stays hq hq'
  case modifyRead => exact fun k b hq _ => h.sameOp rfl rfl fun _ _ _ hq' => stays hq hq'
  case response =>
    intro k op b hq _ _
    exact initAfter_probed mode gain itime (u := s.pop.gotResponse b) hq ⟨h.initialized, h.pastProbe⟩
  case written =>
    intro k op b hq _
    exact initAfter_probed mode gain itime (u := s.pop.wrote s.vd) hq ⟨h.initialized, h.pastProbe⟩
  case error => exact fun k op ph e _ _ _ => ended k _ _
  case slept => exact fun k op ph ph' hq _ _ _ => h.sameOp rfl rfl fun _ _ _ hq' => stays hq hq'
  case aborted => exact fun k op ph _ _ _ => ended k _ _
  case woken => exact fun _ _ _ => h.sameOp rfl rfl fun _ op ph hq => ⟨op, ph, hq⟩
  case awaitAborted => exact fun k _ _ => ended k _ _
  case settled => exact fun _ _ => h.sameOp rfl rfl fun _ op ph hq => ⟨op, ph, hq⟩
  case look => exact fun _ => h.sameOp rfl rfl fun _ op ph hq => ⟨op, ph, hq⟩

end Sys2Proof.Machine
end

section
/-! The invariants of the machine (10_state R51, R40): every step keeps them. -/
namespace Sys2Proof.Machine

/-! ## The register invariants (R51) -/

/-- The register invariants of an idle engine. -/
theorem RegsInv.ofIdle {t : State} (busy : t.busy = false) (seq : t.seq = .idle) (settling : t.settling = false)
    (awaiting : t.measAwaiting = false) (initialized : t.initialized = true → t.variant ≠ none)
    (result : t.resultValid = true → t.done = true ∧ t.lastStatus = .ok) : RegsInv t where
  busyIdle := by simp [busy, seq]
  settling := by simp [settling]
  awaiting := by simp [awaiting]
  initialized := initialized
  result := result
  done _ := busy
  probed := by simp [seq]

/-- The register invariants of a running command. -/
theorem RegsInv.ofBusy {i : Instr} {t : State} (busy : t.busy = true) (decoded : decode t.cmdl = .ok i)
    (flags : RunFlags i t) (done : t.done = false) (resultValid : t.resultValid = false)
    (initialized : t.initialized = true → t.variant ≠ none)
    (pastProbe : i.op = .init → ∀ k op ph, t.seq = .chan (k + 1) op ph → t.variant ≠ none) : RegsInv t where
  busyIdle := by simp [busy, flags.notIdle]
  settling c := by
    obtain ⟨hq, rfl⟩ := flags.settling c
    exact ⟨hq, decoded⟩
  awaiting c := by
    refine ⟨busy, ?_⟩
    rcases flags.awaiting c with rfl | rfl
    · exact .inl decoded
    · exact .inr decoded
  initialized := initialized
  result := by simp [resultValid]
  done := by simp [done]
  probed mode gain itime k op ph hd := by
    obtain rfl : i = .init mode gain itime := by simpa [decoded] using hd
    exact pastProbe rfl k op ph

/-- Neither the events nor FAULT nor the word a host read returned enters the register invariants. -/
theorem RegsInv.hostAction {s : State} (h : RegsInv s) (inbox : List Event) (tick : Nat) (overrun : Bool) (rd : Word) :
    RegsInv { s with inbox := inbox, tick := tick, hostOverrun := overrun, hostRd := rd } :=
  ⟨h.busyIdle, h.settling, h.awaiting, h.initialized, h.result, h.done, h.probed⟩

theorem regsInv_reset : RegsInv State.reset := .ofIdle rfl rfl rfl rfl (by simp [State.reset]) (by simp [State.reset])

/-- While BUSY = 1 there is neither DONE nor a result (R51). -/
theorem RegsInv.unfinished {s : State} (h : RegsInv s) (hb : s.busy = true) :
    s.done = false ∧ s.resultValid = false := by
  have done : s.done = false := Bool.eq_false_iff.mpr fun c => by simp [h.done c] at hb
  have resultValid : s.resultValid = false := Bool.eq_false_iff.mpr fun c => by simp [(h.result c).1] at done
  exact ⟨done, resultValid⟩

/-- While BUSY = 0 the engine is in IDLE and neither settles nor measures (R51). -/
theorem RegsInv.idle {s : State} (h : RegsInv s) (hb : s.busy = false) :
    s.seq = .idle ∧ s.settling = false ∧ s.measAwaiting = false := by
  have seq := h.busyIdle.mp hb
  have settling : s.settling = false := Bool.eq_false_iff.mpr fun c => by simp [(h.settling c).1] at seq
  have awaiting : s.measAwaiting = false := Bool.eq_false_iff.mpr fun c => by simp [(h.awaiting c).1] at hb
  exact ⟨seq, settling, awaiting⟩

/-- A running command's flags are what R51 says. -/
theorem RegsInv.flags {s : State} {i : Instr} (h : RegsInv s) (hb : s.busy = true) (hd : decode s.cmdl = .ok i) :
    RunFlags i s where
  notIdle c := by simp [h.busyIdle.mpr c] at hb
  settling c := by simpa [hd] using h.settling c
  awaiting c := by simpa [hd] using (h.awaiting c).2

/-- A step of a running command records a variant before INITIALIZED and before INIT goes past its probe. -/
theorem advance_probed {s : State} {i : Instr} (h : RegsInv s) (hd : decode s.cmdl = .ok i) :
    ((advance (ruleOf i) s).initialized = true → (advance (ruleOf i) s).variant ≠ none) ∧
    (i.op = .init → ∀ k op ph, (advance (ruleOf i) s).seq = .chan (k + 1) op ph →
      (advance (ruleOf i) s).variant ≠ none) := by
  by_cases hi : i.op = .init
  · obtain ⟨mode, gain, itime, rfl⟩ := Instr.op_eq_init.mp hi
    have probed := advance_init_probed mode gain itime ⟨h.initialized, fun k op ph => h.probed _ _ _ k op ph hd⟩
    exact ⟨probed.initialized, fun _ => probed.pastProbe⟩
  · have effect := advance_effect i s
    have variant : (advance (ruleOf i) s).variant = s.variant := by
      obtain ⟨_, _, _, variant, _⟩ := State.untouched_fields (effect.elim Running.untouched Ended.untouched)
      exact variant hi
    have initialized : (advance (ruleOf i) s).initialized = s.initialized := by
      rcases effect with running | ended
      · exact hostView_congr State.initialized running.host
      · exact ended.initialized.resolve_right fun c => hi c.1
    rw [variant, initialized]
    exact ⟨h.initialized, fun c => absurd c hi⟩

/-- A step of a running command keeps the register invariants. -/
theorem advance_regsInv {s : State} {i : Instr} (h : RegsInv s) (hb : s.busy = true) (hd : decode s.cmdl = .ok i) :
    RegsInv (advance (ruleOf i) s) := by
  obtain ⟨done, resultValid⟩ := h.unfinished hb
  obtain ⟨initialized, pastProbe⟩ := advance_probed h hd
  rcases advance_effect i s with running | ended
  · refine .ofBusy ?_ ?_ (running.flags (h.flags hb hd)) ?_ ?_ initialized pastProbe
    · rw [hostView_congr State.busy running.host, hb]
    · rw [hostView_congr State.cmdl running.host, hd]
    · rw [hostView_congr State.done running.host, done]
    · rw [hostView_congr State.resultValid running.host, resultValid]
  · refine .ofIdle ended.busy ended.seq ended.settling ended.awaiting initialized fun c => ⟨ended.done, ?_⟩
    exact ended.resultValid.resolve_left fun same => by simp [same, resultValid] at c

/-- Refusing a word keeps the register invariants (R275). -/
theorem refuse_regsInv {s : State} (st : Status) (h : RegsInv s) (hb : s.busy = false) :
    RegsInv (refuse st (clearForIssue s.pop)) := by
  obtain ⟨seq, settling, awaiting⟩ := h.idle hb
  exact .ofIdle hb seq settling awaiting h.initialized (by simp)

/-- Accepting a command keeps the register invariants (R274). -/
theorem start_regsInv {s : State} (i : Instr) (h : RegsInv s) (hb : s.busy = false) :
    RegsInv ((ruleOf i).start (accept i (clearForIssue s.pop))) := by
  obtain ⟨-, settling, awaiting⟩ := h.idle hb
  obtain ⟨host, -, seq, variant, sameSettling, sameAwaiting⟩ := ruleOf_start i (accept i (clearForIssue s.pop))
  have flags : RunFlags i ((ruleOf i).start (accept i (clearForIssue s.pop))) :=
    ⟨by simpa [seq] using firstStep_ne_idle i, by simp [sameSettling, settling], by simp [sameAwaiting, awaiting]⟩
  refine .ofBusy ?_ (i := i) ?_ flags ?_ ?_ ?_ ?_
  · exact (hostView_congr State.busy host :)
  · rw [hostView_congr State.cmdl host]
    exact decode_encode i
  · exact (hostView_congr State.done host :)
  · exact (hostView_congr State.resultValid host :)
  · rw [variant, hostView_congr State.initialized host]
    exact h.initialized
  · intro hi k op ph hq
    obtain ⟨mode, gain, itime, rfl⟩ := Instr.op_eq_init.mp hi
    simp [seq, firstStep, ruleOp] at hq

/-- Settles O8: every thing a step can do keeps the register invariants. -/
theorem stepKeepsRegsInv : Obligations.StepKeepsRegsInv := by
  unfold Obligations.StepKeepsRegsInv
  refine ⟨regsInv_reset, fun s t h hstep => ?_⟩
  rcases step_cases hstep with ⟨i, hb, hd, _, _, rfl⟩ | ⟨i, w, hb, _, _, rfl⟩ | ⟨e, w, hb, _, _, rfl⟩ |
    ⟨w, _, _, rfl⟩ | ⟨off, w, _, _, rfl⟩ | ⟨_, rfl⟩ | ⟨_, _, rfl⟩
  · exact advance_regsInv h hb hd
  · rcases issue_cases (gateOf i) i (ruleOf i) s with ⟨st, _, hi⟩ | ⟨_, hi⟩ <;> rw [hi]
    · exact refuse_regsInv st h hb
    · exact start_regsInv i h hb
  · exact refuse_regsInv _ h hb
  · exact h.hostAction s.inbox.tail (s.tick + 1) true s.hostRd
  · exact h.hostAction s.inbox.tail (s.tick + 1) s.hostOverrun w
  · exact regsInv_reset.hostAction s.inbox.tail (s.tick + 1) false 0
  · exact h.hostAction s.inbox.tail (s.tick + 1) s.hostOverrun s.hostRd

/-! ## The positions of a running command (R40) -/

/-- Settles O9: a step of a command that still runs stays at a position of its rule, and an accepted command
is at its first. -/
theorem stepKeepsPositionInv : Obligations.StepKeepsPositionInv := by
  unfold Obligations.StepKeepsPositionInv
  intro s t h hstep hbusy
  rcases step_cases hstep with ⟨i, hb, hd, _, _, rfl⟩ | ⟨i, w, hb, _, _, rfl⟩ | ⟨e, w, hb, _, _, rfl⟩ |
    ⟨w, _, _, rfl⟩ | ⟨off, w, _, _, rfl⟩ | ⟨_, rfl⟩ | ⟨_, _, rfl⟩
  · rcases advance_effect i s with running | ended
    · obtain ⟨j, hj, hpos⟩ := h hb
      obtain rfl : i = j := by simpa [hd] using hj
      exact ⟨i, by rw [hostView_congr State.cmdl running.host, hd], running.atPosition hpos⟩
    · simp [ended.busy] at hbusy
  · rcases issue_cases (gateOf i) i (ruleOf i) s with ⟨st, _, hi⟩ | ⟨_, hi⟩ <;> rw [hi] at hbusy ⊢
    · simp [hb] at hbusy
    · obtain ⟨host, -, seq, -, -, -⟩ := ruleOf_start i (accept i (clearForIssue s.pop))
      refine ⟨i, ?_, by rw [seq]; exact position_firstStep i⟩
      rw [hostView_congr State.cmdl host]
      exact decode_encode i
  · simp [hb] at hbusy
  · exact h hbusy
  · exact h hbusy
  · simp [State.reset] at hbusy
  · exact h hbusy

end Sys2Proof.Machine
end

section
/-! Which step writes which register (10_state R32 to R44), the host port (R45, R46), reset (R50) and ENG_STATUS (R31). -/
namespace Sys2Proof.Machine

/-- Settles O49: a step after which the command still runs keeps the host view, which blanks the three flags. -/
theorem runningCommandLeavesHostRegisters : Obligations.RunningCommandLeavesHostRegisters := by
  unfold Obligations.RunningCommandLeavesHostRegisters
  intro i s t hb hexec hbusy
  obtain rfl : advance (ruleOf i) s = t := by simpa [exec_busy hb] using hexec
  rcases advance_effect i s with ⟨host, _, _, _⟩ | ended
  · exact ⟨hostView_congr State.lastStatus host, hostView_congr State.done host, hostView_congr State.initialized host,
      hostView_congr State.resultValid host, hostView_congr State.cleanupFailed host,
      hostView_congr State.resultWords host, hostView_congr State.terr host, hostView_congr State.resByte host,
      hostView_congr State.resWord host, hostView_congr State.hostOverrun host, hostView_congr State.cmdl host,
      hostView_congr State.hostRd host⟩
  · simp [ended.busy] at hbusy

/-- The only position of a command without a transaction is its finish step (R220, R221). -/
theorem eq_lookup_of_position {i : Instr} {q : Seq} (hi : i = .getName ∨ i = .getWavelengths) (h : position i q) :
    q = .lookup := by
  rcases hi with rfl | rfl <;> cases q <;> simp [position, ruleOp] at h ⊢

/-- A command without a transaction keeps the channel's registers: at its issue, and at its finish step (R220, R221). -/
theorem exec_lookup_keeps_channel {i : Instr} (hi : i = .getName ∨ i = .getWavelengths) {s t : State}
    (hpos : position i s.seq ∨ s.busy = false) (hexec : exec i s = .next t) :
    t.va = s.va ∧ t.vd = s.vd ∧ t.sreg = s.sreg ∧ t.xbuf = s.xbuf ∧ t.trace = s.trace := by
  cases hb : s.busy with
  | true =>
    have hq : s.seq = .lookup := eq_lookup_of_position hi (hpos.resolve_right (by simp [hb]))
    obtain rfl : advance (ruleOf i) s = t := by simpa [exec_busy hb] using hexec
    have look : advance (ruleOf i) s = (ruleOf i).look s.pop := by simp [advance, hq]
    rw [look]
    rcases hi with rfl | rfl <;> exact ⟨rfl, rfl, rfl, rfl, rfl⟩
  | false =>
    obtain rfl : issue (gateOf i) i (ruleOf i) s = t := by simpa [exec_idle hb] using hexec
    rcases issue_cases (gateOf i) i (ruleOf i) s with ⟨st, _, h⟩ | ⟨_, h⟩ <;> rw [h]
    · exact ⟨rfl, rfl, rfl, rfl, rfl⟩
    · rcases hi with rfl | rfl <;> exact ⟨rfl, rfl, rfl, rfl, rfl⟩

/-- Settles O50: the fields of what a command's row leaves alone, and the channel's registers for the two lookups. -/
theorem datapathFrame : Obligations.DatapathFrame := by
  unfold Obligations.DatapathFrame
  intro i s
  obtain ⟨t, hexec⟩ := exec_answers i s
  obtain ⟨cal, err1, masks, -, overrun, rd⟩ := State.untouched_fields (exec_untouched hexec)
  exact ⟨t, hexec, fun h => cal fun c => h (Instr.op_eq_readCal.mp c),
    fun h => err1 fun c => h (Instr.op_eq_takeMeasIllum.mp c), masks, fun hi hpos => exec_lookup_keeps_channel hi hpos hexec, overrun, rd⟩

/-- Settles O51: a step that changes VARIANT is a reset, or a running INIT's, whose only such step is its probe's. -/
theorem variantOnlyByTheProbe : Obligations.VariantOnlyByTheProbe := by
  unfold Obligations.VariantOnlyByTheProbe
  intro s t h hstep changed
  rcases step_cases_registers hstep with ⟨i, hb, hd, rfl⟩ | ⟨hp, rfl⟩ | ⟨_, same, _⟩
  · have init : i.op = .init := Decidable.byContradiction fun c => by
      obtain ⟨-, -, -, variant, -⟩ :=
        State.untouched_fields ((advance_effect i s).elim Running.untouched Ended.untouched)
      exact changed (variant c)
    obtain ⟨mode, gain, itime, rfl⟩ := Instr.op_eq_init.mp init
    obtain ⟨j, hj, hpos⟩ := h hb
    obtain rfl : Instr.init mode gain itime = j := by simpa [hd] using hj
    obtain ⟨hq, b, v, hp, hv, variant⟩ := (advance_init_variant hpos).resolve_left changed
    refine .inr ⟨mode, gain, itime, b, hb, hd, hq, hp, ?_⟩
    rw [variant]
    exact (variantOf_eq_some hv).imp (And.imp_right (congrArg some)) (And.imp_right (congrArg some))
  · exact .inl ⟨hp, rfl⟩
  · exact absurd same changed

/-- Settles O52: a running command changes INITIALIZED only where INIT ends with OK. -/
theorem initializedOnlyByInit : Obligations.InitializedOnlyByInit := by
  unfold Obligations.InitializedOnlyByInit
  intro s t hstep changed
  rcases step_cases_registers hstep with ⟨i, hb, hd, rfl⟩ | ⟨hp, rfl⟩ | ⟨same, _⟩
  · rcases advance_effect i s with running | ended
    · exact absurd (hostView_congr State.initialized running.host) changed
    · obtain ⟨init, set, ok⟩ := ended.initialized.resolve_left changed
      obtain ⟨mode, gain, itime, rfl⟩ := Instr.op_eq_init.mp init
      exact .inr ⟨_, _, _, hb, hd, set, ended.busy, ok⟩
  · exact .inl ⟨hp, rfl⟩
  · exact absurd same changed

/-- Settles O53: a running command changes TERR only where it ends with TRANSPORT_ERROR. -/
theorem terrOnlyWithTransportError : Obligations.TerrOnlyWithTransportError := by
  unfold Obligations.TerrOnlyWithTransportError
  intro s t hstep changed
  rcases step_cases_registers hstep with ⟨i, hb, hd, rfl⟩ | ⟨hp, rfl⟩ | ⟨_, _, same, _⟩
  · rcases advance_effect i s with running | ended
    · exact absurd (hostView_congr State.terr running.host) changed
    · exact .inr ⟨hb, ended.busy, ended.terr.resolve_left changed⟩
  · exact .inl ⟨hp, rfl⟩
  · exact absurd same changed

/-- Settles O54: a running command changes a result register only where it ends with that result. -/
theorem resultsOnlyAtAnOkFinish : Obligations.ResultsOnlyAtAnOkFinish := by
  unfold Obligations.ResultsOnlyAtAnOkFinish
  intro s t hstep hr
  rcases step_cases_registers hstep with ⟨i, hb, hd, rfl⟩ | ⟨hp, rfl⟩ | ⟨_, _, _, sameByte, sameWord⟩
  · rcases advance_effect i s with running | ended
    · exact ⟨fun c => absurd (hostView_congr State.resByte running.host) c,
        fun c => absurd (hostView_congr State.resWord running.host) c⟩
    · refine ⟨fun c => ?_, fun c => ?_⟩
      · obtain ⟨command, ok, valid, byte⟩ := ended.resByte.resolve_left c
        refine ⟨hb, ended.busy, ok, valid, byte, ?_⟩
        rcases command with ⟨a, rfl⟩ | rfl | rfl
        · exact .inl ⟨a, hd⟩
        · exact .inr (.inl hd)
        · exact .inr (.inr hd)
      · obtain ⟨command, ok, valid, words⟩ := ended.resWord.resolve_left c
        refine ⟨hb, ended.busy, ok, valid, words, ?_⟩
        rcases command with rfl | rfl
        · exact .inl hd
        · exact .inr hd
  · exact absurd hp hr
  · exact ⟨fun c => absurd sameByte c, fun c => absurd sameWord c⟩

/-! ## The host port -/

theorem hostRegister_fault (s : State) : hostRegister s 0x28 = .ok (faultWord s) := rfl

/-- Settles O16: HOST_OVERRUN is kept by every step but the write of CMD while BUSY = 1 and the engine reset. -/
theorem faultIsSticky : Obligations.FaultIsSticky := by
  unfold Obligations.FaultIsSticky
  refine ⟨hostRegister_fault, fun s t hstep => ?_⟩
  rcases step_cases hstep with ⟨i, hb, hd, hr, hw, rfl⟩ | ⟨i, w, hb, hp, _, rfl⟩ | ⟨e, w, hb, hp, _, rfl⟩ |
    ⟨w, hb, hp, rfl⟩ | ⟨off, w, hp, _, rfl⟩ | ⟨hp, rfl⟩ | ⟨hr, hw, rfl⟩
  · obtain ⟨-, -, -, -, overrun, -⟩ :=
      State.untouched_fields ((advance_effect i s).elim Running.untouched Ended.untouched)
    exact .inr ⟨hr, by simp [overrun, hw]⟩
  · obtain ⟨-, -, -, -, overrun, -⟩ := State.untouched_fields (issue_untouched (gateOf i) i s)
    exact .inr ⟨by simp [hp], by simp [overrun, hb]⟩
  · exact .inr ⟨by simp [hp], by simp [hb]⟩
  · exact .inr ⟨by simp [hp], by simp [overrun, hb, hp, Config.hCmd]⟩
  · exact .inr ⟨by simp [hp], by simp [hp]⟩
  · exact .inl ⟨hp, rfl⟩
  · have notCmd : ∀ w, s.peek ≠ .hostWrite 0x00 w := hw
    exact .inr ⟨hr, by simp [notCmd]⟩

/-- A host read that has a value changes nothing but the word it returned (R46). -/
theorem step_hostRead {s : State} {off : Nat} {w : Word} {rest : List Event} (hi : s.inbox = .hostRead off :: rest)
    (hr : hostRegister s off = .ok w) :
    step s = .next { s with inbox := rest, tick := s.tick + 1, hostRd := w } := by
  simp [step, turn, State.peek_cons hi, hostRead, hr, State.pop_cons hi]

/-- A host write to another offset than CMD is ignored (R46). -/
theorem step_hostWrite_ignored {s : State} {off : Nat} {w : Word} {rest : List Event}
    (hi : s.inbox = .hostWrite off w :: rest) (ho : off ≠ Config.hCmd) :
    step s = .next { s with inbox := rest, tick := s.tick + 1 } := by
  simp [step, turn, State.peek_cons hi, hostWriteTurn, ho, State.pop_cons hi]

/-- A reserved offset reads 0 (R46). -/
theorem hostRegister_reserved (s : State) {off : Nat}
    (ho : off ∉ [0x00, 0x04, 0x08, 0x0C, 0x10, 0x14, 0x18, 0x1C, 0x20, 0x24, 0x28]) : hostRegister s off = .ok 0 := by
  simp only [List.mem_cons, List.not_mem_nil, or_false, not_or] at ho
  have noWord : ¬(0x10 ≤ off ∧ off < 0x28 ∧ off % 4 = 0) := by omega
  simp only [hostRegister, Config.hEngStatus, Config.hTerr, Config.hResByte, Config.hFault, Config.hResWord, ho, noWord,
    if_false]

/-- RES_WORD[k] reads at 0x10 + 4k while it holds the result (R39, R46). -/
theorem hostRegister_resWord {s : State} (hv : s.resultValid = true) (hw : s.resultWords = true) (k : Fin 6) :
    hostRegister s (0x10 + 4 * k.val) = .ok s.resWord[k] := by
  have inMap : 0x10 + 4 * k.val < 0x28 ∧ (0x10 + 4 * k.val) % 4 = 0 := by omega
  have notOther : 0x10 + 4 * k.val ≠ 0x04 ∧ 0x10 + 4 * k.val ≠ 0x08 ∧ 0x10 + 4 * k.val ≠ 0x0C ∧
      0x10 + 4 * k.val ≠ 0x28 := by
    omega
  simp [hostRegister, Config.hEngStatus, Config.hTerr, Config.hResByte, Config.hFault, Config.hResWord, inMap, notOther,
    hv, hw]

/-- Settles O13: each offset of the map, then the reads and the ignored writes. -/
theorem hostRegisterMap : Obligations.HostRegisterMap := by
  unfold Obligations.HostRegisterMap
  intro s
  refine ⟨rfl, rfl, rfl, fun hv hw => ?_, hostRegister_resWord, ?_, fun off => hostRegister_reserved s,
    fun off w rest => step_hostRead, fun off w rest => step_hostWrite_ignored⟩
  · simp [hostRegister, hv, hw, Config.hEngStatus, Config.hTerr, Config.hResByte]
  · rw [hostRegister_fault, faultWord]
    cases s.hostOverrun <;> rfl

/-! ## The step and the decoded command -/

/-- A host write of a command word to CMD while BUSY = 0 is the engine step that issues it (R272). -/
theorem step_hostWrite_issues {s : State} {w : Word} {rest : List Event} {i : Instr} (hb : s.busy = false)
    (hi : s.inbox = .hostWrite 0x00 w :: rest) (hd : decode w = .ok i) : step s = exec i s := by
  simp [step, turn, State.peek_cons hi, hostWriteTurn, Config.hCmd, hb, hd]

/-- The engine's own turn while BUSY = 1 is a step of the command in CMDL (R40). -/
theorem engineTurn_busy {s : State} {i : Instr} (hb : s.busy = true) (hd : decode s.cmdl = .ok i) :
    engineTurn s = .run i := by
  simp [engineTurn, hb, hd]

/-- Settles O5: the turn of each event, by the lemma of the host's write and of the engine's own turn. -/
theorem stepRunsTheDecodedCommand : Obligations.StepRunsTheDecodedCommand := by
  unfold Obligations.StepRunsTheDecodedCommand
  refine ⟨fun s w rest i hb hi hd => step_hostWrite_issues hb hi hd, fun s e rest i hb hi he hd => ?_⟩
  have own := engineTurn_busy hb hd
  rcases he with rfl | rfl | rfl | ⟨a, rfl⟩ <;> simp [step, turn, State.peek_cons hi, own]

/-! ## Reset (R50) -/

/-- A result register read at reset has no value (R297). -/
theorem hostRegister_result_reset {off : Nat}
    (h : off = 0x0C ∨ off = 0x10 ∨ off = 0x14 ∨ off = 0x18 ∨ off = 0x1C ∨ off = 0x20 ∨ off = 0x24) :
    hostRegister State.reset off = .error (.noResult off) := by
  rcases h with rfl | rfl | rfl | rfl | rfl | rfl | rfl <;> rfl

/-- Settles O6: the fields of State.reset as written, and the reads that have no value there. -/
theorem resetState : Obligations.ResetState := by
  unfold Obligations.ResetState
  refine ⟨rfl, rfl, rfl, rfl, rfl, rfl, rfl, rfl, rfl, rfl, rfl, rfl, rfl, rfl, rfl, rfl, rfl, rfl, rfl, rfl, rfl, rfl,
    rfl, rfl, rfl, rfl, rfl, rfl, fun off => hostRegister_result_reset⟩

/-- At reset nothing is running, so no position is to be checked. -/
theorem positionInv_reset : PositionInv State.reset := by
  simp [PositionInv, State.reset]

/-- At reset no channel op runs and no request is made. -/
theorem handshakeInv_reset : HandshakeInv State.reset where
  last := by simp [State.reset]
  polled := by simp [State.reset]
  writes := by simp [State.reset, State.request]
  reads := by simp [State.reset, State.request]
  addressFirst := by simp [State.reset]
  requestFirst := by simp [State.reset]

/-- Settles O7: the base case of each of the three invariants. -/
theorem invariantsHoldAtReset : Obligations.InvariantsHoldAtReset :=
  ⟨regsInv_reset, positionInv_reset, handshakeInv_reset⟩

/-! ## ENG_STATUS (R31) -/

/-- ENG_STATUS with the width of each field written out, the highest first. -/
theorem engStatus_fields (s : State) : engStatus s =
    (0#18 ++ BitVec.ofBool s.resultWords ++ BitVec.ofBool s.settling ++
    BitVec.ofBool s.cleanupFailed ++ BitVec.ofBool s.resultValid ++ BitVec.ofBool s.measAwaiting ++
    variantCode s.variant ++ BitVec.ofBool s.initialized ++ BitVec.ofBool s.done ++ BitVec.ofBool s.busy ++
    statusCode s.lastStatus : BitVec (18 + 1 + 1 + 1 + 1 + 1 + 2 + 1 + 1 + 1 + 4)) := rfl

/-- Each flag stands at its bit. -/
theorem engStatus_flags (s : State) :
    (engStatus s).getLsbD 4 = s.busy ∧ (engStatus s).getLsbD 5 = s.done ∧ (engStatus s).getLsbD 6 = s.initialized ∧
    (engStatus s).getLsbD 9 = s.measAwaiting ∧ (engStatus s).getLsbD 10 = s.resultValid ∧
    (engStatus s).getLsbD 11 = s.cleanupFailed ∧ (engStatus s).getLsbD 12 = s.settling ∧
    (engStatus s).getLsbD 13 = s.resultWords := by
  rw [engStatus_fields]
  refine ⟨?_, ?_, ?_, ?_, ?_, ?_, ?_, ?_⟩
  all_goals
    refine BitVec.getLsbD_append.trans ?_
    simp only [BitVec.getLsbD_append]
    simp

theorem engStatus_lastStatus (s : State) : (engStatus s).extractLsb' 0 4 = statusCode s.lastStatus := by
  rw [engStatus_fields]
  exact BitVec.extractLsb'_append_eq_right

theorem engStatus_variant (s : State) : (engStatus s).extractLsb' 7 2 = variantCode s.variant := by
  rw [engStatus_fields]
  refine (BitVec.extractLsb'_append_eq_of_le (by decide)).trans ?_
  simp (disch := decide) only [BitVec.extractLsb'_append_eq_of_le, BitVec.extractLsb'_append_eq_of_add_le]
  exact BitVec.extractLsb'_eq_self

theorem engStatus_reserved (s : State) : (engStatus s).extractLsb' 14 18 = 0 := by
  rw [engStatus_fields]
  refine (BitVec.extractLsb'_append_eq_of_le (by decide)).trans ?_
  simp (disch := decide) only [BitVec.extractLsb'_append_eq_of_le]
  rfl

/-- Settles O12: the flags and the two codes at their bits; the codes themselves are the tables of R31 and R270. -/
theorem engStatusLayout : Obligations.EngStatusLayout := by
  unfold Obligations.EngStatusLayout
  intro s
  obtain ⟨busy, done, initialized, awaiting, valid, cleanup, settling, words⟩ := engStatus_flags s
  exact ⟨engStatus_lastStatus s, busy, done, initialized, engStatus_variant s, awaiting, valid, cleanup, settling, words,
    engStatus_reserved s, rfl, rfl, rfl, rfl, rfl, rfl, rfl, rfl, rfl, rfl, rfl, rfl⟩

end Sys2Proof.Machine
end

section
/-! The requests of the engine (41_channel R71 to R73), and their order in a channel op: the handshake of R91. -/
namespace Sys2Proof.Machine

/-! ## The transaction in flight -/

/-- A transaction is in flight exactly in a channel phase that makes one (R40, R171). -/
theorem State.request_eq_some {s : State} {x : Xfer} :
    s.request = some x ↔ ∃ k op ph, s.seq = .chan k op ph ∧ ph.request s = some x := by
  constructor
  · intro h
    cases hq : s.seq with
    | chan k op ph => exact ⟨k, op, ph, rfl, by simpa only [State.request, hq] using h⟩
    | idle | daSleep | settle | lookup => simp only [State.request, hq, reduceCtorEq] at h
  · rintro ⟨k, op, ph, hq, hx⟩
    simpa only [State.request, hq] using hx

/-- The requests a phase can make: a read of STATUS, a read of READ, a write of WRITE (R71). -/
theorem Phase.request_cases {s : State} {ph : Phase} {x : Xfer} (h : ph.request s = some x) :
    x = .busRead Config.pStatus ∨ x = .busRead Config.pRead ∨ ∃ v, x = .busWrite Config.pWrite v := by
  cases ph <;> cases h
  case rChk | rTxw | rRxw | wTx1 | wTx2 => exact .inl rfl
  case rDrain | rResp => exact .inr (.inl rfl)
  case rReq | wAddr | wData => exact .inr (.inr ⟨_, rfl⟩)

/-- The phases that write WRITE (R171). -/
theorem Phase.eq_of_request_busWrite {s : State} {ph : Phase} {p v : Byte}
    (h : ph.request s = some (.busWrite p v)) : ph = .rReq ∨ ph = .wAddr ∨ ph = .wData := by
  cases ph <;> simp [Phase.request] at h ⊢

/-- The phases that read READ (R171). -/
theorem Phase.eq_of_request_busRead_pRead {s : State} {ph : Phase}
    (h : ph.request s = some (.busRead Config.pRead)) : ph = .rDrain ∨ ph = .rResp := by
  cases ph <;> simp [Phase.request, Config.pStatus, Config.pRead] at h ⊢

/-- Settles O29: the requests of the fourteen phases; every request goes to DEV_ADDR. -/
theorem onlyThreePhysicalRegisters : Obligations.OnlyThreePhysicalRegisters := by
  unfold Obligations.OnlyThreePhysicalRegisters
  intro s x h
  obtain ⟨_, _, ph, _, hx⟩ := State.request_eq_some.mp h
  exact ⟨Phase.request_cases hx, rfl⟩

/-! ## The handshake, phase by phase -/

/-- SREG is the byte of the last STATUS read of the trace. -/
def State.lastPoll (s : State) : Prop := ∀ b, s.trace.findSome? BusEvent.statusByte = some b → s.sreg = b

/-- The last thing on the bus was the STATUS read whose byte SREG holds. -/
def State.justPolled (s : State) : Prop := s.trace.head? = some (.status s.sreg)

/-- The last thing on the bus, polls apart, was the write of the request byte of the channel op's address. -/
def State.requested (write : Bool) (s : State) : Prop :=
  (s.trace.dropWhile BusEvent.isPoll).head? = some (.write (requestByte write s.va))

/-- What R91 says of a channel op in a phase. -/
def Phase.handshake (s : State) : Phase → Prop
  | .rChk | .rTxw | .rTxs | .wTx1 | .wTx1s => True
  | .rDrain => s.justPolled ∧ rxv s.sreg = true
  | .rReq | .wAddr => s.justPolled ∧ txv s.sreg = false
  | .rRxw | .rRxs => s.requested false
  | .rResp => s.justPolled ∧ rxv s.sreg = true ∧ s.requested false
  | .wTx2 | .wTx2s => s.requested true
  | .wData => s.justPolled ∧ txv s.sreg = false ∧ s.requested true

theorem Phase.handshake_congr {s t : State} (ph : Phase) (trace : t.trace = s.trace) (sreg : t.sreg = s.sreg)
    (va : t.va = s.va) : ph.handshake t = ph.handshake s := by
  cases ph <;> simp only [Phase.handshake, State.justPolled, State.requested, trace, sreg, va]

/-- HandshakeInv is: SREG is the last STATUS byte read, and the running channel op is where R91 lets it be. -/
theorem handshakeInv_iff {s : State} :
    HandshakeInv s ↔ s.lastPoll ∧ ∀ k op ph, s.seq = .chan k op ph → ph.handshake s := by
  constructor
  · intro h
    refine ⟨h.last, fun k op ph hq => ?_⟩
    have polled := h.polled k op ph hq
    have writes (p v : Byte) (hx : ph.request s = some (.busWrite p v)) : txv s.sreg = false :=
      h.writes p v (State.request_eq_some.mpr ⟨k, op, ph, hq, hx⟩)
    have reads (hx : ph.request s = some (.busRead Config.pRead)) : rxv s.sreg = true :=
      h.reads (State.request_eq_some.mpr ⟨k, op, ph, hq, hx⟩)
    have address := h.addressFirst k op ph hq
    have request := h.requestFirst k op ph hq
    cases ph with
    | rChk | rTxw | rTxs | wTx1 | wTx1s => trivial
    | rDrain => exact ⟨polled rfl, reads rfl⟩
    | rReq | wAddr => exact ⟨polled rfl, writes _ _ rfl⟩
    | rRxw | rRxs => exact request (by simp)
    | rResp => exact ⟨polled rfl, reads rfl, request (by simp)⟩
    | wTx2 | wTx2s => exact address (by simp)
    | wData => exact ⟨polled rfl, writes _ _ rfl, address (by simp)⟩
  · rintro ⟨last, h⟩
    refine ⟨last, fun k op ph hq hd => ?polled, fun p v hx => ?writes, fun hx => ?reads,
      fun k op ph hq hp => ?address, fun k op ph hq hp => ?request⟩
    case polled =>
      have now := h k op ph hq
      cases ph with
      | rDrain | rReq | rResp | wAddr | wData => exact now.1
      | rChk | rTxw | rTxs | rRxw | rRxs | wTx1 | wTx1s | wTx2 | wTx2s => cases hd
    case writes =>
      obtain ⟨k, op, ph, hq, hx⟩ := State.request_eq_some.mp hx
      have now := h k op ph hq
      rcases Phase.eq_of_request_busWrite hx with rfl | rfl | rfl
      · exact now.2
      · exact now.2
      · exact now.2.1
    case reads =>
      obtain ⟨k, op, ph, hq, hx⟩ := State.request_eq_some.mp hx
      have now := h k op ph hq
      rcases Phase.eq_of_request_busRead_pRead hx with rfl | rfl
      · exact now.2
      · exact now.2.1
    case address =>
      have now := h k op ph hq
      rcases hp with rfl | rfl | rfl
      · exact now
      · exact now
      · exact now.2.2
    case request =>
      have now := h k op ph hq
      rcases hp with rfl | rfl | rfl
      · exact now
      · exact now
      · exact now.2.2

/-- The handshake is a matter of SEQ, the trace, SREG and VA alone. -/
theorem HandshakeInv.sameChannel {s t : State} (h : HandshakeInv s) (seq : t.seq = s.seq := by rfl)
    (trace : t.trace = s.trace := by rfl) (sreg : t.sreg = s.sreg := by rfl) (va : t.va = s.va := by rfl) :
    HandshakeInv t := by
  obtain ⟨last, now⟩ := handshakeInv_iff.mp h
  refine handshakeInv_iff.mpr ⟨by simpa [State.lastPoll, trace, sreg] using last, fun k op ph hq => ?_⟩
  have here := now k op ph (seq ▸ hq)
  rwa [Phase.handshake_congr ph trace sreg va]

/-! ## A step inside a channel op -/

/-- A bus event that is no STATUS read leaves SREG the last STATUS byte read. -/
theorem State.lastPoll_log {s : State} {e : BusEvent} (h : s.lastPoll) (he : e.statusByte = none) :
    (s.log e).lastPoll := by
  simpa [State.lastPoll, he] using h

/-- A STATUS read that returned puts its byte in SREG and on the trace. -/
theorem State.lastPoll_gotStatus (s : State) (b : Byte) : (s.gotStatus b).lastPoll := fun _ h => Option.some.inj h

/-- A transaction that returned leaves SREG the last STATUS byte read. -/
theorem State.lastPoll_transact {s : State} (b : Byte) (ph : Phase) (h : s.lastPoll) : (s.transact b ph).lastPoll := by
  cases ph with
  | rChk | rTxw | rRxw | wTx1 | wTx2 => exact State.lastPoll_gotStatus s b
  | rDrain | rResp => exact State.lastPoll_log (e := .read b) h rfl
  | rReq | wAddr | wData => exact State.lastPoll_log (e := .write _) h rfl
  | rTxs | rRxs | wTx1s | wTx2s => exact h

/-- A transaction that returned takes a channel op from a phase where R91 lets it be to another such phase. -/
theorem Phase.handshake_next {s : State} {ph ph' : Phase} {b : Byte} (h : ph.handshake s) (hs : ph.isSleep = false)
    (hn : ph.next b = some ph') : ph'.handshake (s.transact b ph) := by
  cases ph with
  | rChk =>
    cases hn
    split
    next hb => exact ⟨rfl, hb⟩
    next => trivial
  | rDrain =>
    cases hn
    trivial
  | rTxw | wTx1 =>
    cases hn
    split
    next => trivial
    next hb => exact ⟨rfl, Bool.eq_false_iff.mpr hb⟩
  | rReq | wAddr =>
    cases hn
    rfl
  | rRxw =>
    cases hn
    split
    next hb => exact ⟨rfl, hb, h⟩
    next => exact h
  | wTx2 =>
    cases hn
    split
    next => exact h
    next hb => exact ⟨rfl, Bool.eq_false_iff.mpr hb, h⟩
  | rResp | wData => cases hn
  | rTxs | rRxs | wTx1s | wTx2s => cases hs

/-- A sleep that ended takes a channel op back to its poll, where R91 lets it be. -/
theorem Phase.handshake_slept {s : State} {ph ph' : Phase} (h : ph.handshake s) (hs : ph.isSleep = true)
    (hn : ph.next 0 = some ph') : ph'.handshake (s.log .sleep) := by
  cases ph <;> cases hs <;> cases hn
  case rTxs | wTx1s => trivial
  case rRxs | wTx2s => exact h

/-- A channel op that goes on in a phase where R91 lets it be keeps the handshake. -/
theorem handshakeInv_goto {s : State} (k : Nat) (op : OpKind) {ph : Phase} (last : s.lastPoll) (h : ph.handshake s) :
    HandshakeInv (s.goto (.chan k op ph)) := by
  refine handshakeInv_iff.mpr ⟨last, fun k' op' ph' hq => ?_⟩
  cases hq
  exact (Phase.handshake_congr ph rfl rfl rfl).mpr h

/-! ## A step between channel ops -/

/-- The positions outside a channel op, and the first phase of one: R91 says nothing there. -/
def Seq.betweenOps : Seq → Bool
  | .chan _ _ ph => ph = .rChk ∨ ph = .wTx1
  | .idle | .daSleep _ | .settle | .lookup => true

/-- From `u` to `t`, which is between channel ops, nothing happens on the bus. -/
structure LeavesOp (u t : State) : Prop where
  seq : t.seq.betweenOps = true
  trace : t.trace = u.trace
  sreg : t.sreg = u.sreg

/-- What leaves a channel op keeps the handshake. -/
theorem LeavesOp.handshakeInv {u t : State} (h : LeavesOp u t) (last : u.lastPoll) : HandshakeInv t := by
  obtain ⟨seq, trace, sreg⟩ := h
  refine handshakeInv_iff.mpr ⟨by simpa only [State.lastPoll, trace, sreg] using last, fun k op ph hq => ?_⟩
  have first : ph = .rChk ∨ ph = .wTx1 := by simpa [hq, Seq.betweenOps] using seq
  rcases first with rfl | rfl <;> trivial

theorem finishFail_leavesOp (f : Failure) (u : State) : LeavesOp u (finishFail f u) := by
  cases f <;> exact ⟨rfl, rfl, rfl⟩

/-- INIT after a channel op begins the next one or ends (R201). -/
theorem initAfter_leavesOp (mode gain : BitVec 2) (itime : Byte) (k : Nat) (u : State) :
    LeavesOp u (initAfter mode gain itime k u) := by
  unfold initAfter
  split
  · split <;> exact ⟨rfl, rfl, rfl⟩
  all_goals exact ⟨rfl, rfl, rfl⟩

/-- MeasureBody after a channel op begins the next one, sleeps, or does what its command does then (R241). -/
theorem measureAfter_leavesOp (base : Nat) {exit : State → State} (k : Nat) (u : State)
    (hexit : ∀ v, LeavesOp v (exit v)) : LeavesOp u (measureAfter base exit k u) := by
  unfold measureAfter
  split
  · exact ⟨rfl, rfl, rfl⟩
  · split
    · exact ⟨rfl, rfl, rfl⟩
    · split
      · obtain ⟨seq, trace, sreg⟩ := hexit { u with measAwaiting := false }
        exact ⟨seq, trace, sreg⟩
      · exact ⟨rfl, rfl, rfl⟩

theorem illumEnd_leavesOp (u : State) : LeavesOp u (illumEnd u) := by
  unfold illumEnd
  split
  · exact ⟨rfl, rfl, rfl⟩
  · exact finishFail_leavesOp _ u

/-- TAKE_MEAS_ILLUM after a channel op (R245). -/
theorem illumAfter_leavesOp (k : Nat) (u : State) : LeavesOp u (illumAfter k u) := by
  unfold illumAfter
  split
  · exact ⟨rfl, rfl, rfl⟩
  · split
    · exact measureAfter_leavesOp 1 k u fun _ => ⟨rfl, rfl, rfl⟩
    · exact illumEnd_leavesOp u

/-- A failure of TAKE_MEAS_ILLUM begins its cleanup or ends it (R246). -/
theorem illumFail_leavesOp (k : Nat) (f : Failure) (u : State) : LeavesOp u (illumFail k f u) := by
  unfold illumFail
  split
  · exact ⟨rfl, rfl, rfl⟩
  · obtain ⟨seq, trace, sreg⟩ := illumEnd_leavesOp { u with cleanupFailed := true, err1 := some (u.err1.getD f) }
    exact ⟨seq, trace, sreg⟩

/-- READ_CAL after a byte reads the next one or ends (R250). -/
theorem calAfter_leavesOp (u : State) : LeavesOp u (calAfter u) := by
  rcases calAfter_cases u with ⟨_, h⟩ | ⟨_, _, h⟩ | ⟨_, _, h⟩ <;> rw [h] <;> exact ⟨rfl, rfl, rfl⟩

/-- A rule begins between channel ops. -/
theorem ruleOf_start_leavesOp (i : Instr) (u : State) : LeavesOp u ((ruleOf i).start u) := by
  cases i <;> exact ⟨rfl, rfl, rfl⟩

/-- A channel op of a rule, once done, is left: the two lookups, whose rules say nothing then, have none. -/
theorem ruleOf_after_leavesOp {i : Instr} {k : Nat} {op : OpKind} (hop : ruleOp i k = some op) (u : State) :
    LeavesOp u ((ruleOf i).after k u) := by
  cases i with
  | init mode gain itime => exact initAfter_leavesOp mode gain itime k u
  | takeMeas => exact measureAfter_leavesOp 0 k u fun _ => ⟨rfl, rfl, rfl⟩
  | takeMeasIllum => exact illumAfter_leavesOp k u
  | readCal => exact calAfter_leavesOp u
  | getName | getWavelengths => cases hop
  | _ => exact ⟨rfl, rfl, rfl⟩

/-- A failure leaves its channel op: the command ends or cleans up (R271, R246). -/
theorem ruleOf_fail_leavesOp (i : Instr) (k : Nat) (f : Failure) (u : State) :
    LeavesOp u ((ruleOf i).fail k f u) := by
  by_cases h : i = .takeMeasIllum
  · subst h
    exact illumFail_leavesOp k f u
  · rw [ruleOf_fail h]
    exact finishFail_leavesOp f u

/-! What a rule does after a wait outside its channel ops -/

theorem ruleOf_wake_leavesOp (i : Instr) (k : Nat) {u : State} (hq : u.seq.betweenOps = true) :
    LeavesOp u ((ruleOf i).wake k u) := by
  cases i with
  | takeMeas | takeMeasIllum => exact ⟨rfl, rfl, rfl⟩
  | _ => exact ⟨hq, rfl, rfl⟩

theorem ruleOf_settled_leavesOp (i : Instr) {u : State} (hq : u.seq.betweenOps = true) :
    LeavesOp u ((ruleOf i).settled u) := by
  cases i with
  | softReset => exact ⟨rfl, rfl, rfl⟩
  | _ => exact ⟨hq, rfl, rfl⟩

theorem ruleOf_look_leavesOp (i : Instr) {u : State} (hq : u.seq.betweenOps = true) :
    LeavesOp u ((ruleOf i).look u) := by
  cases i with
  | getName | getWavelengths => exact ⟨rfl, rfl, rfl⟩
  | _ => exact ⟨hq, rfl, rfl⟩

/-! ## One step -/

/-- A step of a running command at a position of its rule keeps the handshake. -/
theorem advance_handshakeInv {i : Instr} {s : State} (hpos : position i s.seq) (h : HandshakeInv s) :
    HandshakeInv (advance (ruleOf i) s) := by
  have popped : HandshakeInv s.pop := h.sameChannel
  obtain ⟨last, now⟩ := handshakeInv_iff.mp popped
  have opOf {k : Nat} {op : OpKind} {ph : Phase} (hq : s.seq = .chan k op ph) : ruleOp i k = some op := by
    rw [hq] at hpos
    exact hpos.1
  have failed (k : Nat) (f : Failure) {e : BusEvent} (he : e.statusByte = none) :
      HandshakeInv ((ruleOf i).fail k f (s.pop.log e)) :=
    (ruleOf_fail_leavesOp i k f _).handshakeInv (State.lastPoll_log last he)
  have slept : (s.pop.log .sleep).lastPoll := State.lastPoll_log last rfl
  have settled : (s.pop.log .settle).lastPoll := State.lastPoll_log last rfl
  apply advance_elim (P := HandshakeInv)
  case wait => exact popped
  case next =>
    exact fun k op ph b ph' hq hs _ hn =>
      handshakeInv_goto k op (State.lastPoll_transact b ph last) (Phase.handshake_next (now k op ph hq) hs hn)
  case modifyRead =>
    intro k b _ _
    have begins : LeavesOp (s.pop.gotResponse b) (modifyWrite k (s.pop.gotResponse b)) := ⟨rfl, rfl, rfl⟩
    exact begins.handshakeInv (State.lastPoll_transact b .rResp last)
  case response =>
    exact fun k op b hq _ _ => (ruleOf_after_leavesOp (opOf hq) _).handshakeInv (State.lastPoll_transact b .rResp last)
  case written =>
    exact fun k op b hq _ => (ruleOf_after_leavesOp (opOf hq) _).handshakeInv (State.lastPoll_transact b .wData last)
  case error => exact fun k _ _ e _ _ _ => failed k _ rfl
  case slept =>
    exact fun k op ph ph' hq hs _ hn => handshakeInv_goto k op slept (Phase.handshake_slept (now k op ph hq) hs hn)
  case aborted => exact fun k _ _ _ _ _ => failed k _ rfl
  case woken => exact fun k hq _ => (ruleOf_wake_leavesOp i k (by simp [hq, Seq.betweenOps])).handshakeInv slept
  case awaitAborted => exact fun k _ _ => failed k _ rfl
  case settled => exact fun hq _ => (ruleOf_settled_leavesOp i (by simp [hq, Seq.betweenOps])).handshakeInv settled
  case look => exact fun hq => (ruleOf_look_leavesOp i (by simp [hq, Seq.betweenOps])).handshakeInv last

/-- Settles O10: a step of a running command goes through the phases in R91's order, an accepted command begins before
any request, and no other step reaches the channel's registers. -/
theorem stepKeepsHandshakeInv : Obligations.StepKeepsHandshakeInv := by
  unfold Obligations.StepKeepsHandshakeInv
  refine ⟨handshakeInv_reset, fun s t hpos h hstep => ?_⟩
  rcases step_cases hstep with ⟨i, hb, hd, _, _, rfl⟩ | ⟨i, w, hb, _, _, rfl⟩ | ⟨e, w, hb, _, _, rfl⟩ |
    ⟨w, _, _, rfl⟩ | ⟨off, w, _, _, rfl⟩ | ⟨_, rfl⟩ | ⟨_, _, rfl⟩
  · obtain ⟨j, hj, hpos⟩ := hpos hb
    obtain rfl : i = j := by simpa [hd] using hj
    exact advance_handshakeInv hpos h
  · rcases issue_cases (gateOf i) i (ruleOf i) s with ⟨st, _, hi⟩ | ⟨_, hi⟩ <;> rw [hi]
    · exact h.sameChannel
    · exact (ruleOf_start_leavesOp i _).handshakeInv h.last
  · exact h.sameChannel
  · exact h.sameChannel
  · exact h.sameChannel
  · exact handshakeInv_reset.sameChannel
  · exact h.sameChannel

end Sys2Proof.Machine
end

section
/-! The word of a command (30_encoding R110, R112, R120 to R125): decoding is reading off the row and its operand bits,
so the words that decode to a command are its encoding alone, and every other word is refused for R122's reasons. -/
namespace Sys2Proof

/-! ## The fields as numbers (R110) -/

/-- OP is the word's quotient by 2^27. -/
theorem fieldOp_toNat (w : Word) : (fieldOp w).toNat = w.toNat / 2 ^ 27 := by
  rw [fieldOp, BitVec.extractLsb'_toNat, Nat.shiftRight_eq_div_pow]
  omega

/-- Two bit fields side by side, as a number. -/
theorem toNat_append_eq_add {n m : Nat} (x : BitVec n) (y : BitVec m) : (x ++ y).toNat = x.toNat * 2 ^ m + y.toNat := by
  rw [BitVec.toNat_append, ← Nat.shiftLeft_add_eq_or_of_lt y.isLt, Nat.shiftLeft_eq]

/-- A word built from its fields, as a number. -/
theorem wordOf_toNat (op : BitVec 5) (a : VAddr) (b c : Byte) :
    (wordOf op a b c).toNat = op.toNat * 2 ^ 27 + a.toNat * 2 ^ 16 + b.toNat * 2 ^ 8 + c.toNat := by
  simp only [wordOf, toNat_append_eq_add, BitVec.toNat_ofNat]
  omega

/-! ## Decoding within a row (R120, R121) -/

/-- The OP values that name no row are 0x00 and 0x13 to 0x1F (R122). -/
theorem Op.ofCode_eq_none {c : BitVec 5} : Op.ofCode c = none ↔ c.toNat = 0 ∨ 0x13 ≤ c.toNat := by
  revert c; decide

/-- A word with a row's OP decodes to the row's command, or has a must-be-zero bit set. -/
theorem decode_of_fieldOp {w : Word} {op : Op} (h : fieldOp w = op.code) :
    decode w = if w &&& op.mask = op.matchWord then .ok (op.instr w) else .error .badOperand := by
  simp [decode, h]

/-- A word that decodes to a command is a word of some row, and the command is what the row reads from it. -/
theorem matchesRow_of_decode_eq_ok {w : Word} {i : Instr} (h : decode w = .ok i) :
    ∃ op : Op, w &&& op.mask = op.matchWord ∧ op.instr w = i := by
  cases hop : Op.ofCode (fieldOp w) with
  | none => simp [decode, hop] at h
  | some op =>
    rw [decode_of_fieldOp (Op.code_of_ofCode hop).symm] at h
    split at h
    case isTrue hm => exact ⟨op, hm, Except.ok.inj h⟩
    case isFalse => cases h

/-- The command a row reads from a word is one of that row. -/
@[simp] theorem Op.instr_op (op : Op) (w : Word) : (op.instr w).op = op := by
  cases op <;> rfl

/-! ## The one word of a command (R112) -/

/-- The mask and match word of a row, field by field: OP is the row's, RSV is 0, and so is every operand bit the mask
names (R112, R120). -/
theorem fields_of_matchesRow {op : Op} {w : Word} (h : w &&& op.mask = op.matchWord) :
    fieldOp w = op.code ∧ fieldRsv w = 0 ∧ fieldAddr w &&& fieldAddr op.mask = 0 ∧
      fieldB w &&& fieldB op.mask = 0 ∧ fieldC w &&& fieldC op.mask = 0 := by
  have field (start len : Nat) :
      w.extractLsb' start len &&& op.mask.extractLsb' start len = op.matchWord.extractLsb' start len := by
    rw [← h, BitVec.extractLsb'_and]
  have hop : fieldOp w &&& fieldOp op.mask = fieldOp op.matchWord := field ..
  have hrsv : fieldRsv w &&& fieldRsv op.mask = fieldRsv op.matchWord := field ..
  have opMask : fieldOp op.mask = BitVec.allOnes 5 := by cases op <;> rfl
  have rsvMask : fieldRsv op.mask = BitVec.allOnes 4 := by cases op <;> rfl
  rw [opMask, BitVec.and_allOnes] at hop
  rw [rsvMask, BitVec.and_allOnes] at hrsv
  refine ⟨hop.trans ?_, hrsv.trans ?_, (field 16 7).trans ?_, (field 8 8).trans ?_, (field 0 8).trans ?_⟩ <;>
    cases op <;> rfl

/-- A word with RSV = 0 is built from its other fields (R110). -/
theorem eq_wordOf_of_fieldRsv {w : Word} (rsv : fieldRsv w = 0) :
    w = wordOf (fieldOp w) (fieldAddr w) (fieldB w) (fieldC w) := by
  have zeros : 0#4 = w.extractLsb' 23 4 := rsv.symm
  rw [wordOf, zeros]
  simp only [fieldOp, fieldAddr, fieldB, fieldC]
  ext j hj
  simp
  grind

/-- A row reads every bit its mask leaves out: encoding what it reads gives the word back where each field has zeros in
the masked bits (R112). -/
theorem encode_instr_wordOf {op : Op} {a : VAddr} {b c : Byte} (ha : a &&& fieldAddr op.mask = 0)
    (hb : b &&& fieldB op.mask = 0) (hc : c &&& fieldC op.mask = 0) :
    encode (op.instr (wordOf op.code a b c)) = wordOf op.code a b c := by
  have allAddr (x : VAddr) : x &&& 127#7 = x := BitVec.and_allOnes
  have allByte (x : Byte) : x &&& 255#8 = x := BitVec.and_allOnes
  have level (x : Byte) : x &&& 252#8 = 0#8 → 0#6 ++ x.extractLsb' 0 2 = x := by revert x; decide
  have switch (x : Byte) : x &&& 254#8 = 0#8 → 0#7 ++ x.extractLsb' 0 1 = x := by revert x; decide
  have gainMode (x : Byte) : x &&& 240#8 = 0#8 → 0#4 ++ x.extractLsb' 2 2 ++ x.extractLsb' 0 2 = x := by
    revert x; decide
  -- In each row, `ha`, `hb`, `hc` say which fields are 0, and what C is where its operand is narrower than a byte.
  cases op <;> simp [Op.mask, fieldAddr, fieldB, fieldC, allAddr, allByte] at ha hb hc <;>
    simp [encode, Instr.op, Op.instr, fieldC10_wordOf, fieldC32_wordOf, fieldC0_wordOf, ha, hb, hc, level, switch,
      gainMode]

/-- A word of a row is the encoding of the command the row reads from it. -/
theorem encode_instr_of_matchesRow {op : Op} {w : Word} (h : w &&& op.mask = op.matchWord) :
    encode (op.instr w) = w := by
  obtain ⟨hop, hrsv, ha, hb, hc⟩ := fields_of_matchesRow h
  have word := eq_wordOf_of_fieldRsv hrsv
  rw [hop] at word
  rw [word]
  exact encode_instr_wordOf ha hb hc

/-- The words that decode to a command are its encoding alone (R121). -/
theorem decode_eq_ok_iff {w : Word} {i : Instr} : decode w = .ok i ↔ w = encode i := by
  constructor
  · intro h
    obtain ⟨op, hm, rfl⟩ := matchesRow_of_decode_eq_ok h
    exact (encode_instr_of_matchesRow hm).symm
  · rintro rfl
    exact decode_encode i

/-- A word decodes to a command encoded by fields exactly when it is the number of those fields. -/
theorem decode_eq_ok_iff_toNat {w : Word} {i : Instr} {op : BitVec 5} {a : VAddr} {b c : Byte}
    (h : encode i = wordOf op a b c) :
    decode w = .ok i ↔ w.toNat = op.toNat * 2 ^ 27 + a.toNat * 2 ^ 16 + b.toNat * 2 ^ 8 + c.toNat := by
  rw [decode_eq_ok_iff, ← BitVec.toNat_inj, h, wordOf_toNat]

/-! ## The four statements -/

/-- Settles O1: the encoding is of the command's row, and the row reads back the operands it was built from. -/
theorem decodeOfEncode : Obligations.DecodeOfEncode :=
  decode_encode

/-- Settles O2: the number of each command's fields; an operand narrower than its byte has zeros above it. -/
theorem operandFieldsOfEachOpcode : Obligations.OperandFieldsOfEachOpcode := by
  have level (x : BitVec 2) : (0#6 ++ x : Byte).toNat = x.toNat := by revert x; decide
  have switch (x : BitVec 1) : (0#7 ++ x : Byte).toNat = x.toNat := by revert x; decide
  have gainMode (gain mode : BitVec 2) : (0#4 ++ gain ++ mode : Byte).toNat = gain.toNat * 2 ^ 2 + mode.toNat := by
    revert gain mode; decide
  intro w
  refine ⟨fun _ => ?_, fun _ _ => ?_, fun _ _ _ => ?_, fun _ _ _ => ?_, fun _ => ?_, fun _ => ?_, fun _ => ?_,
    fun _ => ?_, fun _ => ?_, fun _ => ?_, fun _ => ?_, ?_, ?_, ?_, ?_, ?_, ?_, ?_⟩ <;>
    rw [decode_eq_ok_iff_toNat rfl] <;> simp [Instr.op, Op.code, level, switch, gainMode, Nat.add_assoc]

/-- Settles O3: OP names no row or one, and in a row the must-be-zero bits decide. -/
theorem everyWordIsOneOfThree : Obligations.EveryWordIsOneOfThree := by
  intro w
  rw [← fieldOp_toNat]
  constructor
  · intro reserved
    simp [decode, Op.ofCode_eq_none.mpr reserved]
  · intro op hop
    rw [decode_of_fieldOp (BitVec.eq_of_toNat_eq hop)]
    exact ⟨fun bad => if_neg bad, fun good => ⟨op.instr w, if_pos good, op.instr_op w⟩⟩

/-- Settles O4: each word by evaluation, its decoding by the round trip, each pseudo-instruction by its expansion. -/
theorem workedEncodingsAndPseudoInstructions : Obligations.WorkedEncodingsAndPseudoInstructions :=
  ⟨rfl, rfl, rfl, rfl, rfl, rfl,
    decode_encode (.read 0x04), decode_encode (.write 0x05 0x32), decode_encode (.modify 0x07 0xF7 0x08),
    decode_encode (.init 2 1 0x10), decode_encode (.setItime 0xFF), decode_encode .readCal,
    rfl, rfl, rfl, rfl,
    ⟨rfl, rfl⟩, ⟨rfl, rfl⟩, ⟨rfl, rfl⟩, ⟨rfl, rfl⟩, ⟨rfl, rfl⟩, ⟨rfl, rfl⟩⟩

end Sys2Proof
end

section
/-! The conversion decoder (40_conversion): what a field written by COMBINE reads back as, and which bits it keeps; the
variant of a probe byte; the pattern of four bytes. -/
namespace Sys2Proof.Machine

/-! ## Combine (R142) -/

/-- A bit of COMBINE: what the and-mask leaves of the input's, or the or-mask's. -/
theorem combine_getLsbD (x mAnd mOr : Byte) (n : Nat) :
    (combine x mAnd mOr).getLsbD n = (x.getLsbD n && mAnd.getLsbD n || mOr.getLsbD n) := by
  rw [combine, BitVec.getLsbD_or, BitVec.getLsbD_and]

/-- A bit field of COMBINE, in the same way. -/
theorem combine_extractLsb' (x mAnd mOr : Byte) (start len : Nat) :
    (combine x mAnd mOr).extractLsb' start len =
      x.extractLsb' start len &&& mAnd.extractLsb' start len ||| mOr.extractLsb' start len := by
  rw [combine, BitVec.extractLsb'_or, BitVec.extractLsb'_and]

/-- The bits the and-mask leaves and the or-mask does not touch are the input's. -/
theorem combine_and_of_kept (x : Byte) {mAnd mOr kept : Byte} (left : mAnd &&& kept = kept)
    (untouched : mOr &&& kept = 0#8) :
    combine x mAnd mOr &&& kept = x &&& kept := by
  rw [combine, BitVec.and_or_distrib_right, BitVec.and_assoc, left, untouched, BitVec.or_zero]

/-- The law of R143: where the and-mask clears a field and the or-mask has a value there and nothing elsewhere, the field
reads back as the value and the bits of the and-mask are the input's. -/
theorem combine_inserts (x : Byte) {mAnd mOr : Byte} {start len : Nat} {v : BitVec len}
    (cleared : mAnd.extractLsb' start len = 0#len) (put : mOr.extractLsb' start len = v ∧ mOr &&& mAnd = 0#8) :
    (combine x mAnd mOr).extractLsb' start len = v ∧ combine x mAnd mOr &&& mAnd = x &&& mAnd := by
  obtain ⟨value, nothingElse⟩ := put
  refine ⟨?_, combine_and_of_kept x BitVec.and_self nothingElse⟩
  rw [combine_extractLsb', cleared, value, BitVec.and_zero, BitVec.zero_or]

/-- Settles O55: the bit law of COMBINE, which no bound on the bit's number limits. -/
theorem combineIsBitwise : Obligations.CombineIsBitwise :=
  fun x mAnd mOr n _ => combine_getLsbD x mAnd mOr n

/-- Settles O56: a row with an operand clears its field and puts the operand there, so R143's law gives both parts. The
two rows without one, DATA_AVAILABLE's clear and RST, are read by the bit law. -/
theorem inserterLaws : Obligations.InserterLaws :=
  ⟨fun cs m => ⟨rfl, combine_inserts cs rfl (by revert m; decide)⟩,
    fun cs g => ⟨rfl, combine_inserts cs rfl (by revert g; decide)⟩,
    fun cs => ⟨rfl, (combine_getLsbD cs _ _ 1).trans (by simp [mAndDa]), combine_and_of_kept cs rfl rfl⟩,
    fun cs => ⟨rfl, (combine_getLsbD cs _ _ 7).trans (by simp [mOrRst]), combine_and_of_kept cs rfl rfl⟩,
    fun lc c => ⟨rfl, combine_inserts lc rfl (by revert c; decide)⟩,
    fun lc o => ⟨rfl, combine_inserts lc rfl (by revert o; decide)⟩,
    fun lc c => ⟨rfl, combine_inserts lc rfl (by revert c; decide)⟩,
    fun lc o => ⟨rfl, combine_inserts lc rfl (by revert o; decide)⟩⟩

/-! ## Variants and floats (R150, R160, R164) -/

/-- Settles O57: the two tags by evaluation; a byte that is neither is no tag's number either. -/
theorem variantDecode : Obligations.VariantDecode := by
  intro t
  by_cases ha : t = 0x3E
  · rw [ha]; rfl
  by_cases hb : t = 0x3F
  · rw [hb]; rfl
  have number {k : Byte} (h : t ≠ k) : t.toNat ≠ k.toNat := mt BitVec.eq_of_toNat_eq h
  exact (variantOf_eq_none ha hb).trans ((if_neg (number ha)).trans (if_neg (number hb))).symm

/-- Settles O58: four bytes side by side, as a number. -/
theorem floatIsBigEndian : Obligations.FloatIsBigEndian := by
  intro b0 b1 b2 b3
  simp only [f32, toNat_append_eq_add]
  omega

/-- Settles O59: the float patterns and the field functions by evaluation, the unsupported bytes by R150's rule. -/
theorem workedConversions : Obligations.WorkedConversions :=
  ⟨rfl, rfl, rfl, rfl, rfl, rfl, rfl, rfl, rfl, rfl, rfl, rfl,
    variantOf_eq_none (by decide) (by decide), variantOf_eq_none (by decide) (by decide),
    variantOf_eq_none (by decide) (by decide), rfl, rfl, rfl, rfl⟩

end Sys2Proof.Machine
end

section
/-! The channel (41_channel R171): one step of each kind of phase, in any command, and what is left for the command's rule
after the last one. -/
namespace Sys2Proof.Machine

/-! ## One step inside a channel op (R171) -/

/-- A running command whose transaction in flight is answered with a byte performs it and leaves its phase. -/
theorem exec_of_ok (i : Instr) {s : State} {k : Nat} {op : OpKind} {ph : Phase} {b : Byte} {rest : List Event}
    (hb : s.busy = true) (hq : s.seq = .chan k op ph) (hp : ph.isSleep = false)
    (hi : s.inbox = .transport (.ok b) :: rest) :
    exec i s = .next (afterPhase (ruleOf i) k op ph b (s.pop.transact b ph)) := by
  rw [exec_busy hb, advance_of_ok _ hq hp (State.peek_cons hi)]

/-- A transaction that returned inside a channel op writes what its phase writes, and the next phase begins. -/
theorem exec_transact (i : Instr) {s : State} {k : Nat} {op : OpKind} {ph ph' : Phase} {b : Byte} {rest : List Event}
    (hb : s.busy = true) (hq : s.seq = .chan k op ph) (hi : s.inbox = .transport (.ok b) :: rest)
    (hp : ph.isSleep = false) (hn : ph.next b = some ph') :
    exec i s = .next { s.transact b ph with seq := .chan k op ph', inbox := rest, tick := s.tick + 1 } := by
  rw [exec_of_ok i hb hq hp hi, State.pop_cons hi, afterPhase, hn]
  cases ph <;> rfl

/-- A sleep inside a channel op that the timer ends leads back to its poll. -/
theorem exec_slept (i : Instr) {s : State} {k : Nat} {op : OpKind} {ph ph' : Phase} {rest : List Event}
    (hb : s.busy = true) (hq : s.seq = .chan k op ph) (hi : s.inbox = .timer :: rest) (hp : ph.isSleep = true)
    (hn : ph.next 0 = some ph') :
    exec i s = .next { s with
      seq := .chan k op ph', trace := .sleep :: s.trace, inbox := rest, tick := s.tick + 1 } := by
  rw [exec_busy hb]
  simp only [advance, hq, hp, if_true, sleepStep, State.peek_cons hi, afterPhase, hn, State.pop_cons hi]
  rfl

/-- The response of a VModify begins its write (R180). -/
theorem exec_modify_response (i : Instr) {s : State} {k : Nat} {b : Byte} {rest : List Event}
    (hb : s.busy = true) (hq : s.seq = .chan k .vmodify .rResp) (hi : s.inbox = .transport (.ok b) :: rest) :
    exec i s = .next (modifyWrite k (s.pop.gotResponse b)) := by
  rw [exec_of_ok i hb hq rfl hi]
  rfl

/-- The data byte of a VWrite or VModify, once written, hands over to the command's rule. -/
theorem exec_written (i : Instr) {s : State} {k : Nat} {op : OpKind} {b : Byte} {rest : List Event}
    (hb : s.busy = true) (hq : s.seq = .chan k op .wData) (hi : s.inbox = .transport (.ok b) :: rest) :
    exec i s = .next ((ruleOf i).after k (s.pop.wrote s.vd)) := by
  rw [exec_of_ok i hb hq rfl hi]
  simp [afterPhase, Phase.next, State.transact]

/-! ## What the rules leave after a channel op -/

/-- What a rule does between its steps leaves the byte of the last transaction and the data byte. -/
def KeepsBytes (f : State → State) : Prop := ∀ s, (f s).xbuf = s.xbuf ∧ (f s).vd = s.vd

theorem finishFail_keepsBytes (f : Failure) : KeepsBytes (finishFail f) := by
  intro s
  cases f <;> exact ⟨rfl, rfl⟩

theorem measureAfter_keepsBytes (base : Nat) {exit : State → State} (k : Nat) (h : KeepsBytes exit) :
    KeepsBytes (measureAfter base exit k) := by
  intro s
  unfold measureAfter
  split
  · exact ⟨rfl, rfl⟩
  · split
    · exact ⟨rfl, rfl⟩
    · split
      · exact h { s with measAwaiting := false }
      · exact ⟨rfl, rfl⟩

theorem illumEnd_keepsBytes : KeepsBytes illumEnd := by
  intro s
  unfold illumEnd
  split
  · exact ⟨rfl, rfl⟩
  · exact finishFail_keepsBytes _ s

theorem illumAfter_keepsBytes (k : Nat) : KeepsBytes (illumAfter k) := by
  intro s
  unfold illumAfter
  split
  · exact ⟨rfl, rfl⟩
  · split
    · exact measureAfter_keepsBytes 1 k (exit := illumCleanup) (fun _ => ⟨rfl, rfl⟩) s
    · exact illumEnd_keepsBytes s

theorem calAfter_keepsBytes : KeepsBytes calAfter := by
  intro s
  rcases calAfter_cases s with ⟨_, h⟩ | ⟨_, _, h⟩ | ⟨_, _, h⟩ <;> rw [h] <;> exact ⟨rfl, rfl⟩

/-- INIT after a channel op leaves XBUF, and VD too unless it goes on to its write of integration-time, which brings a
data byte of its own (R201). -/
theorem initAfter_bytes (mode gain : BitVec 2) (itime : Byte) (k : Nat) (s : State) :
    (initAfter mode gain itime k s).xbuf = s.xbuf ∧ (k ≠ 4 → (initAfter mode gain itime k s).vd = s.vd) := by
  unfold initAfter
  split
  · split <;> exact ⟨rfl, fun _ => rfl⟩
  case h_5 => exact ⟨rfl, fun h => absurd rfl h⟩
  all_goals exact ⟨rfl, fun _ => rfl⟩

/-- A rule after a channel op leaves XBUF, and after a VRead VD too. -/
theorem ruleOf_after_bytes (i : Instr) (k : Nat) (s : State) :
    ((ruleOf i).after k s).xbuf = s.xbuf ∧ (ruleOp i k = some .vread → ((ruleOf i).after k s).vd = s.vd) := by
  have both {f : State → State} (h : KeepsBytes f) :
      (f s).xbuf = s.xbuf ∧ (ruleOp i k = some .vread → (f s).vd = s.vd) := (h s).imp_right fun vd _ => vd
  cases i with
  | init mode gain itime =>
    obtain ⟨xbuf, vd⟩ := initAfter_bytes mode gain itime k s
    refine ⟨xbuf, fun probe => vd ?_⟩
    rintro rfl
    exact absurd probe (by simp [ruleOp])
  | takeMeas => exact both (measureAfter_keepsBytes 0 k fun _ => ⟨rfl, rfl⟩)
  | takeMeasIllum => exact both (illumAfter_keepsBytes k)
  | readCal => exact both calAfter_keepsBytes
  | _ => exact ⟨rfl, fun _ => rfl⟩

/-- The response at a position of the command's rule: XBUF and the trace take the byte, VD too where it is a VRead. -/
theorem exec_response_bytes {i : Instr} {s : State} {k : Nat} {op : OpKind} {b : Byte} {rest : List Event}
    (hb : s.busy = true) (hq : s.seq = .chan k op .rResp) (hi : s.inbox = .transport (.ok b) :: rest)
    (hpos : position i s.seq) :
    ∃ t, exec i s = .next t ∧ t.xbuf = b ∧ t.trace = .read b :: s.trace ∧ (op = .vread → t.vd = b) := by
  rw [hq] at hpos
  obtain ⟨hop, hphase⟩ := hpos
  cases op with
  | vread =>
    obtain ⟨xbuf, vd⟩ := ruleOf_after_bytes i k (s.pop.gotResponse b)
    exact ⟨_, exec_vread_response i hb hq hi, xbuf, (ruleOf_after_quiet i k _).1, fun _ => vd hop⟩
  | vwrite => cases hphase
  | vmodify => exact ⟨_, exec_modify_response i hb hq hi, rfl, rfl, fun c => nomatch c⟩

/-- The data byte of a channel op, once written, is in XBUF and on the trace. -/
theorem exec_written_bytes (i : Instr) {s : State} {k : Nat} {op : OpKind} {b : Byte} {rest : List Event}
    (hb : s.busy = true) (hq : s.seq = .chan k op .wData) (hi : s.inbox = .transport (.ok b) :: rest) :
    ∃ t, exec i s = .next t ∧ t.xbuf = s.vd ∧ t.trace = .write s.vd :: s.trace :=
  ⟨_, exec_written i hb hq hi, (ruleOf_after_bytes i k _).1, (ruleOf_after_quiet i k _).1⟩

/-- Settles O20: a transaction phase that has a next one by `exec_transact`, the two last ones by what every rule keeps,
the sleeps by `exec_slept`. -/
theorem channelPhaseTable : Obligations.ChannelPhaseTable := by
  unfold Obligations.ChannelPhaseTable
  intro i s k op b rest hb
  refine ⟨fun hi => ⟨fun hq => exec_transact i hb hq hi rfl rfl, fun hq => exec_transact i hb hq hi rfl rfl,
    fun hq => exec_transact i hb hq hi rfl rfl, fun hq => ?rReq, fun hq => exec_transact i hb hq hi rfl rfl,
    fun hq => exec_response_bytes hb hq hi, fun hq => exec_transact i hb hq hi rfl rfl, fun hq => ?wAddr,
    fun hq => exec_transact i hb hq hi rfl rfl, fun hq => exec_written_bytes i hb hq hi⟩,
    fun hi ph ph' sleep hq => ?sleeps⟩
  case rReq =>
    rw [← requestByte_read]
    exact exec_transact i hb hq hi rfl rfl
  case wAddr =>
    rw [← requestByte_write]
    exact exec_transact i hb hq hi rfl rfl
  case sleeps =>
    have wakes : ph.isSleep = true ∧ ph.next 0 = some ph' := by
      simp only [List.mem_cons, Prod.mk.injEq, List.not_mem_nil, or_false] at sleep
      rcases sleep with ⟨rfl, rfl⟩ | ⟨rfl, rfl⟩ | ⟨rfl, rfl⟩ | ⟨rfl, rfl⟩ <;> exact ⟨rfl, rfl⟩
    exact exec_slept i hb hq hi wakes.1 wakes.2

/-- Settles O21: the response step of a VModify, the byte combined with the masks. -/
theorem modifyCombinesAndWrites : Obligations.ModifyCombinesAndWrites := by
  unfold Obligations.ModifyCombinesAndWrites
  intro i s k b rest hb hq hi
  rw [exec_modify_response i hb hq hi, State.pop_cons hi]
  rfl

end Sys2Proof.Machine
end

section
/-! Runs of channel phases in any command (41_channel R172 to R184): a VRead up to its response, a VWrite up to its data
byte, a poll that repeats. -/
namespace Sys2Proof.Machine

/-! ## A VRead and a VWrite with their polls satisfied at once -/

/-- From a VRead's poll of TX_VALID, satisfied at once, three transactions lead to its response (R172). -/
theorem execRun_request (i : Instr) {s : State} {k : Nat} {op : OpKind} {s2 c s3 : Byte} {rest : List Event}
    (hb : s.busy = true) (hq : s.seq = .chan k op .rTxw) (h2 : txv s2 = false) (h3 : rxv s3 = true)
    (hi : s.inbox = answers [s2, c, s3] ++ rest) :
    execRun i 3 s = .next { s with
      seq := .chan k op .rResp, sreg := s3, xbuf := s3, inbox := rest, tick := s.tick + 3
      trace := .status s3 :: .write (0#1 ++ s.va) :: .status s2 :: s.trace } := by
  have ready : Phase.rTxw.next s2 = some .rReq := by simp [Phase.next, h2]
  have valid : Phase.rRxw.next s3 = some .rResp := by simp [Phase.next, h3]
  refine Eq.trans (execRun_succ 2 (exec_transact i hb hq hi rfl ready)) ?_
  refine Eq.trans (execRun_succ 1 (exec_transact i hb rfl rfl rfl rfl)) ?_
  refine Eq.trans (execRun_succ 0 (exec_transact i hb rfl rfl rfl valid)) ?_
  rw [← requestByte_read]
  rfl

/-- A VRead with no stale byte and no wait, up to its response (R174 (b)). -/
theorem execRun_vread (i : Instr) {s : State} {k : Nat} {op : OpKind} {s1 s2 c s3 : Byte} {rest : List Event}
    (hb : s.busy = true) (hq : s.seq = .chan k op .rChk) (h : ReadPrompt s1 s2 s3)
    (hi : s.inbox = answers [s1, s2, c, s3] ++ rest) :
    execRun i 4 s = .next { s with
      seq := .chan k op .rResp, sreg := s3, xbuf := s3, inbox := rest, tick := s.tick + 4
      trace := .status s3 :: .write (0#1 ++ s.va) :: .status s2 :: .status s1 :: s.trace } := by
  obtain ⟨h1, h2, h3⟩ := h
  have h1 : rxv s1 = false := h1
  have clear : Phase.rChk.next s1 = some .rTxw := by simp [Phase.next, h1]
  refine Eq.trans (execRun_succ 3 (exec_transact i hb hq hi rfl clear)) ?_
  exact execRun_request i hb rfl h2 h3 rfl

/-- A VRead that finds a stale byte, up to its response (R174 (c)). -/
theorem execRun_vread_stale (i : Instr) {s : State} {k : Nat} {op : OpKind} {s1 x s2 c s3 : Byte} {rest : List Event}
    (hb : s.busy = true) (hq : s.seq = .chan k op .rChk) (h1 : rxv s1 = true) (h2 : txv s2 = false)
    (h3 : rxv s3 = true) (hi : s.inbox = answers [s1, x, s2, c, s3] ++ rest) :
    execRun i 5 s = .next { s with
      seq := .chan k op .rResp, sreg := s3, xbuf := s3, inbox := rest, tick := s.tick + 5
      trace := .status s3 :: .write (0#1 ++ s.va) :: .status s2 :: .read x :: .status s1 :: s.trace } := by
  have stale : Phase.rChk.next s1 = some .rDrain := by simp [Phase.next, h1]
  refine Eq.trans (execRun_succ 4 (exec_transact i hb hq hi rfl stale)) ?_
  refine Eq.trans (execRun_succ 3 (exec_transact i hb rfl rfl rfl rfl)) ?_
  exact execRun_request i hb rfl h2 h3 rfl

/-- Settles O22: the run without a stale byte and the run with one. -/
theorem vReadDrainsOneStaleByte : Obligations.VReadDrainsOneStaleByte := by
  unfold Obligations.VReadDrainsOneStaleByte
  intro i s k op s1 x s2 c s3 rest hb hq h2 h3
  exact ⟨fun h1 => execRun_vread i hb hq ⟨h1, h2, h3⟩, fun h1 => execRun_vread_stale i hb hq h1 h2 h3⟩

/-- A VWrite with no wait, up to its data byte (R176). -/
theorem execRun_vwrite (i : Instr) {s : State} {k : Nat} {op : OpKind} {s1 c s2 : Byte} {rest : List Event}
    (hb : s.busy = true) (hq : s.seq = .chan k op .wTx1) (h1 : txv s1 = false) (h2 : txv s2 = false)
    (hi : s.inbox = answers [s1, c, s2] ++ rest) :
    execRun i 3 s = .next { s with
      seq := .chan k op .wData, sreg := s2, xbuf := s2, inbox := rest, tick := s.tick + 3
      trace := .status s2 :: .write (1#1 ++ s.va) :: .status s1 :: s.trace } := by
  have ready : Phase.wTx1.next s1 = some .wAddr := by simp [Phase.next, h1]
  have again : Phase.wTx2.next s2 = some .wData := by simp [Phase.next, h2]
  refine Eq.trans (execRun_succ 2 (exec_transact i hb hq hi rfl ready)) ?_
  refine Eq.trans (execRun_succ 1 (exec_transact i hb rfl rfl rfl rfl)) ?_
  refine Eq.trans (execRun_succ 0 (exec_transact i hb rfl rfl rfl again)) ?_
  rw [← requestByte_write]
  rfl

/-! ## A poll that repeats (R184) -/

/-- A handshake poll saw its flag unmet: TX_VALID still set, or RX_VALID still clear (R184). -/
def Phase.unmet (b : Byte) (ph : Phase) : Prop :=
  (ph = .rTxw ∨ ph = .wTx1 ∨ ph = .wTx2) ∧ txv b = true ∨ ph = .rRxw ∧ rxv b = false

/-- A poll that saw its flag unmet goes to a sleep, and from it back to itself. -/
theorem Phase.next_of_unmet {ph : Phase} {b : Byte} (h : ph.unmet b) :
    ph.isSleep = false ∧ (∀ s : State, s.transact b ph = s.gotStatus b) ∧
      ∃ sleep : Phase, ph.next b = some sleep ∧ sleep.isSleep = true ∧ sleep.next 0 = some ph := by
  rcases h with ⟨rfl | rfl | rfl, hb⟩ | ⟨rfl, hb⟩
  · exact ⟨rfl, fun _ => rfl, .rTxs, by simp [Phase.next, hb], rfl, rfl⟩
  · exact ⟨rfl, fun _ => rfl, .wTx1s, by simp [Phase.next, hb], rfl, rfl⟩
  · exact ⟨rfl, fun _ => rfl, .wTx2s, by simp [Phase.next, hb], rfl, rfl⟩
  · exact ⟨rfl, fun _ => rfl, .rRxs, by simp [Phase.next, hb], rfl, rfl⟩

/-- One unmet poll and the sleep after it are two steps that lead back to the poll. -/
theorem execRun_unmet_poll (i : Instr) {s : State} {k : Nat} {op : OpKind} {ph : Phase} {b : Byte} {rest : List Event}
    (hb : s.busy = true) (hq : s.seq = .chan k op ph) (h : ph.unmet b)
    (hi : s.inbox = .transport (.ok b) :: .timer :: rest) :
    execRun i 2 s = .next { s with
      sreg := b, xbuf := b, trace := .sleep :: .status b :: s.trace, inbox := rest, tick := s.tick + 2 } := by
  obtain ⟨transaction, status, sleep, unmet, sleeps, again⟩ := Phase.next_of_unmet h
  refine Eq.trans (execRun_succ 1 (exec_transact i hb hq hi transaction unmet)) ?_
  rw [status]
  refine Eq.trans (execRun_succ 0 (exec_slept i hb rfl rfl sleeps again)) ?_
  rw [← hq]
  rfl

/-- Settles O23: by induction on the number of polls, one of which leads from the polling phase back to it. -/
theorem pollsAreUnbounded : Obligations.PollsAreUnbounded := by
  unfold Obligations.PollsAreUnbounded
  intro i n
  induction n with
  | zero =>
    intro s k op ph b rest hb hq h hi
    have notTaken : s.inbox = rest := hi
    subst notTaken
    rfl
  | succ n ih =>
    intro s k op ph b rest hb hq h hi
    have first := execRun_unmet_poll i hb hq h hi
    rw [show 2 * (n + 1) = 2 + 2 * n by omega]
    refine Eq.trans (execRun_add 2 _ first) (Eq.trans (ih _ k op ph b rest hb hq h rfl) ?_)
    simp [List.replicate_succ', Nat.add_assoc]

end Sys2Proof.Machine
end

section
/-! The commands of the channel, whole (41_channel R173, R177, R181), and the transport error that ends them (R186). -/
namespace Sys2Proof.Machine

/-! ## A transport error (R282) -/

/-- A phase that has a transaction in flight is no sleep. -/
theorem Phase.isSleep_of_request {s : State} {ph : Phase} {x : Xfer} (h : ph.request s = some x) :
    ph.isSleep = false := by
  cases ph with
  | rTxs | rRxs | wTx1s | wTx2s => cases h
  | _ => rfl

/-- Settles O25: the transaction's failure is the rule's, which for every command but TAKE_MEAS_ILLUM is the finish. -/
theorem transportErrorEndsTheCommand : Obligations.TransportErrorEndsTheCommand := by
  unfold Obligations.TransportErrorEndsTheCommand
  intro i s x e rest hillum hb hx hi
  obtain ⟨k, op, ph, hq, hx⟩ := State.request_eq_some.mp hx
  have failed : advance (ruleOf i) s = finishFail (.transport e) (s.pop.log (.error e)) := by
    simp [advance, hq, Phase.isSleep_of_request hx, xferStep, State.peek_cons hi, ruleOf_fail hillum]
  rw [exec_busy hb, failed, State.pop_cons hi]
  exact ⟨rfl, TErr.toNat_setWidth e⟩

/-! ## Whole commands (R173, R177, R181) -/

/-- On an initialized engine every command but INIT passes its gate (R273). -/
theorem gateControl_eq_none {s : State} : gateControl s = none ↔ s.initialized = true := by
  simp [gateControl]

/-- An idle initialized engine accepts a command of that gate, and its rule begins (R274). -/
theorem exec_accepts {i : Instr} {s : State} {e : Event} {rest : List Event} (gate : gateOf i = gateControl)
    (hb : s.busy = false) (hn : s.initialized = true) (hi : s.inbox = e :: rest) :
    exec i s = .next ((ruleOf i).start
      (accept i (clearForIssue { s with inbox := rest, tick := s.tick + 1 }))) := by
  rw [exec_idle hb, gate, issue_of_gate_none _ _ (gateControl_eq_none.mpr hn), State.pop_cons hi]

/-- A command whose rule is one VRead, its byte then being the result. -/
theorem readCommandRuns {i : Instr} {a : VAddr} (gate : gateOf i = gateControl)
    (rule : ruleOf i = { start := startRead 0 a, after := fun _ s => finishByte s.vd s }) : ReadCommandRuns i a := by
  intro s e s1 s2 c s3 b rest hb hn prompt hi
  have accepted := exec_accepts gate hb hn hi
  rw [rule] at accepted
  refine Eq.trans (execRun_succ 5 accepted) ?_
  refine Eq.trans (execRun_add 4 1 (execRun_vread i rfl rfl prompt rfl)) ?_
  refine Eq.trans (execRun_succ 0 (exec_vread_response i rfl rfl rfl)) ?_
  rw [rule]
  rfl

/-- A command whose rule is one VWrite. -/
theorem writeCommandRuns {i : Instr} {a : VAddr} {v : Byte} (gate : gateOf i = gateControl)
    (rule : ruleOf i = .single (startWrite 0 a v)) : WriteCommandRuns i a v := by
  intro s e s1 c1 s2 c2 rest hb hn h1 h2 hi
  have accepted := exec_accepts gate hb hn hi
  rw [rule] at accepted
  refine Eq.trans (execRun_succ 4 accepted) ?_
  refine Eq.trans (execRun_add 3 1 (execRun_vwrite i rfl rfl h1 h2 rfl)) ?_
  refine Eq.trans (execRun_succ 0 (exec_written i rfl rfl rfl)) ?_
  rw [rule]
  rfl

/-- A command whose rule is one VModify. -/
theorem modifyCommandRuns {i : Instr} {a : VAddr} {mAnd mOr : Byte} (gate : gateOf i = gateControl)
    (rule : ruleOf i = .single (startModify 0 a mAnd mOr)) : ModifyCommandRuns i a mAnd mOr := by
  intro s e s1 s2 c s3 b s4 c4 s5 c5 rest hb hn prompt h4 h5 hi
  have accepted := exec_accepts gate hb hn hi
  rw [rule] at accepted
  refine Eq.trans (execRun_succ 9 accepted) ?_
  refine Eq.trans (execRun_add 4 5 (execRun_vread i rfl rfl prompt rfl)) ?_
  refine Eq.trans (execRun_succ 4 (exec_modify_response i rfl rfl rfl)) ?_
  refine Eq.trans (execRun_add 3 1 (execRun_vwrite i rfl rfl h4 h5 rfl)) ?_
  refine Eq.trans (execRun_succ 0 (exec_written i rfl rfl rfl)) ?_
  rw [rule]
  rfl

/-- Settles O30: both rules are one VRead, READ_TEMP's of device-temperature. -/
theorem readAndReadTempRunToTheirFinish : Obligations.ReadAndReadTempRunToTheirFinish :=
  ⟨fun _ => readCommandRuns rfl rfl, readCommandRuns rfl rfl⟩

/-- Settles O31: both rules are one VWrite, SET_ITIME's of integration-time. -/
theorem writeAndSetItimeRunToTheirFinish : Obligations.WriteAndSetItimeRunToTheirFinish :=
  ⟨fun _ _ => writeCommandRuns rfl rfl, fun _ => writeCommandRuns rfl rfl⟩

/-- Settles O32: MODIFY's rule is one VModify. -/
theorem modifyRunsToItsFinish : Obligations.ModifyRunsToItsFinish :=
  fun _ _ _ => modifyCommandRuns rfl rfl

end Sys2Proof.Machine
end

section
/-! The reference device answering a virtual write and then a virtual read (95_test_vectors Part 0, 41_channel R183):
the device's answers, the bench's steps, and the two commands on the bench. -/
namespace Sys2Proof.Machine

/-! ## The reference device -/

theorem RefDevice.answer_status_none {d : RefDevice} (h : d.resp = none) :
    d.answer (.busRead Config.pStatus) = (.ok 0x00, d) := by
  simp [RefDevice.answer, h]

theorem RefDevice.answer_status_some {d : RefDevice} {x : Byte} (h : d.resp = some x) :
    d.answer (.busRead Config.pStatus) = (.ok 0x01, d) := by
  simp [RefDevice.answer, h]

theorem RefDevice.answer_read {d : RefDevice} {x : Byte} (h : d.resp = some x) :
    d.answer (.busRead Config.pRead) = (.ok x, { d with resp := none }) := by
  simp [RefDevice.answer, h, Config.pRead, Config.pStatus]

/-- A write request is half received: the device awaits the data byte for its address. -/
theorem RefDevice.answer_writeRequest {d : RefDevice} (a : VAddr) (h : d.want = none) :
    d.answer (.busWrite Config.pWrite (requestByte true a)) = (.ok 0x00, { d with want := some a }) := by
  have flag : requestByte true a &&& Config.writeFlag ≠ 0 := by revert a; decide
  have address : (requestByte true a).setWidth 7 = a := by revert a; decide
  rw [RefDevice.answer, if_pos rfl, RefDevice.write, h]
  simp only [if_pos flag, address]

/-- A read request queues the register's byte as the response. -/
theorem RefDevice.answer_readRequest {d : RefDevice} {a : VAddr} {x : Byte} (h : d.want = none)
    (ha : a ≠ Config.vControlSetup) (hx : d.reg a = x) :
    d.answer (.busWrite Config.pWrite (requestByte false a)) = (.ok 0x00, { d with resp := some x }) := by
  have flag (a : VAddr) : requestByte false a &&& Config.writeFlag = 0 := by revert a; decide
  have address (a : VAddr) : (requestByte false a).setWidth 7 = a := by revert a; decide
  simp [RefDevice.answer, RefDevice.write, h, flag, address, RefDevice.readRequest, ha, hx]

/-- The data byte is stored plainly at every address but control-setup. -/
theorem RefDevice.answer_data {d : RefDevice} {a : VAddr} (v : Byte) (h : d.want = some a)
    (ha : a ≠ Config.vControlSetup) :
    d.answer (.busWrite Config.pWrite v) = (.ok 0x00, { d.setReg a v with want := none }) := by
  simp [RefDevice.answer, RefDevice.write, h, RefDevice.store, ha]

/-- A register of the device reads back what was stored there. -/
theorem RefDevice.reg_setReg {d : RefDevice} (h : cellsWf d.cells = true) (a : VAddr) (v : Byte) :
    (d.setReg a v).reg a = v := by
  simp [RefDevice.reg, RefDevice.setReg, cellsRead_write h]

/-! ## The end of a bench's run (R300) -/

/-- `n` steps of the bench lead from one bench to another, and no bench on the way is at the end. -/
inductive Bench.Reaches : Bench → Nat → Bench → Prop
  | refl (b : Bench) : Reaches b 0 b
  | cons {b c d : Bench} {n : Nat} (short : ¬b.AtEnd) (step : b.step = .next c) (go : Reaches c n d) :
    Reaches b (n + 1) d

theorem Bench.Reaches.trans {b c d : Bench} {m n : Nat} (h : b.Reaches m c) (go : c.Reaches n d) :
    b.Reaches (n + m) d := by
  induction h with
  | refl => exact go
  | cons short step _ ih => exact .cons short step (ih go)

theorem Bench.run_succ {b c : Bench} (n : Nat) (h : b.step = .next c) : b.run (n + 1) = c.run n := by
  simp [Bench.run, h]

/-- A bench at the end, reached so, is the end of the run. -/
theorem Bench.Reaches.endsAt {b c : Bench} {n : Nat} (h : b.Reaches n c) (atEnd : c.AtEnd) : b.EndsAt n c := by
  induction h with
  | refl b => exact ⟨rfl, atEnd, fun m hm => absurd hm (Nat.not_lt_zero m)⟩
  | cons short step _ ih =>
    obtain ⟨run, -, first⟩ := ih atEnd
    refine ⟨(Bench.run_succ _ step).trans run, atEnd, fun m hm c' hc => ?_⟩
    cases m with
    | zero =>
      cases hc
      exact short
    | succ m => exact first m (Nat.lt_of_succ_lt_succ hm) c' ((Bench.run_succ m step).symm.trans hc)

/-! ## One step of the bench -/

/-- A step of the machine at a given event, on the bench. -/
theorem Bench.feed_eq_next {b : Bench} {e : Event} {t : State}
    (h : Machine.step { b.eng with inbox := e :: b.eng.inbox } = .next t) : b.feed e = .next { b with eng := t } := by
  rw [Bench.feed, h]
  rfl

/-- An idle bench issues the next word of its program (R299). -/
theorem Bench.step_issue {b : Bench} {i : Instr} {ws : List Word} (gate : gateOf i = gateControl)
    (hb : b.eng.busy = false) (hn : b.eng.initialized = true) (hw : b.words = encode i :: ws) :
    b.step = .next { b with
      words := ws
      eng := (ruleOf i).start (accept i (clearForIssue { b.eng with tick := b.eng.tick + 1 })) } := by
  have issued : Machine.step { b.eng with inbox := .hostWrite Config.hCmd (encode i) :: b.eng.inbox } = .next
      ((ruleOf i).start (accept i (clearForIssue { b.eng with tick := b.eng.tick + 1 }))) :=
    Eq.trans (step_hostWrite_issues hb rfl (decode_encode i)) (exec_accepts gate hb hn rfl)
  simp only [Bench.step, hb, hw, Bool.false_eq_true, if_false]
  exact feed_eq_next issued

/-- The device answers the transaction in flight, and the running command takes its step. -/
theorem Bench.step_answer {b : Bench} {i : Instr} {x : Xfer} {y : Byte} {d : RefDevice} {t : State}
    (hb : b.eng.busy = true) (hd : decode b.eng.cmdl = .ok i) (hx : b.eng.request = some x)
    (ha : b.dev.answer x = (.ok y, d))
    (ht : exec i { b.eng with inbox := .transport (.ok y) :: b.eng.inbox } = .next t) :
    b.step = .next { b with eng := t, dev := d } := by
  have ran : Machine.step { b.eng with inbox := .transport (.ok y) :: b.eng.inbox } = .next t :=
    Eq.trans (stepRunsTheDecodedCommand.2 _ _ _ i hb rfl (.inr (.inr (.inr ⟨_, rfl⟩))) hd) ht
  simp only [Bench.step, hb, hx, ha, if_true]
  exact feed_eq_next ran

/-- The device answers a transaction inside a channel op, and the next phase begins. -/
theorem Bench.step_transact {b : Bench} {i : Instr} {k : Nat} {op : OpKind} {ph ph' : Phase} {x : Xfer} {y : Byte}
    {d : RefDevice} (hb : b.eng.busy = true) (hd : decode b.eng.cmdl = .ok i) (hq : b.eng.seq = .chan k op ph)
    (hx : ph.request b.eng = some x) (ha : b.dev.answer x = (.ok y, d)) (hn : ph.next y = some ph') :
    b.step = .next { b with
      eng := { b.eng.transact y ph with seq := .chan k op ph', tick := b.eng.tick + 1 }, dev := d } := by
  have next := exec_transact i (s := { b.eng with inbox := .transport (.ok y) :: b.eng.inbox }) hb hq rfl
    (Phase.isSleep_of_request hx) hn
  rw [Bench.step_answer hb hd (State.request_eq_some.mpr ⟨k, op, ph, hq, hx⟩) ha next]
  cases ph <;> rfl

/-! ## The two commands on the bench -/

/-- The engine of the bench is running, so one step more is taken before the end. -/
theorem Bench.Reaches.running {b c d : Bench} {n : Nat} (hb : b.eng.busy = true) (step : b.step = .next c)
    (go : c.Reaches n d) : b.Reaches (n + 1) d :=
  .cons (by simp [Bench.AtEnd, hb]) step go

/-- The bench issues a word, so one step more is taken before the end. -/
theorem Bench.Reaches.issue {b c d : Bench} {n : Nat} {w : Word} {ws : List Word} (hw : b.words = w :: ws)
    (step : b.step = .next c) (go : c.Reaches n d) : b.Reaches (n + 1) d :=
  .cons (by simp [Bench.AtEnd, hw]) step go

/-- WRITE at an address that stores plainly takes five steps of the bench and leaves the byte in the register. -/
theorem Bench.reaches_write {b : Bench} {a : VAddr} {v : Byte} {ws : List Word} (ha : a ≠ Config.vControlSetup)
    (hb : b.eng.busy = false) (hn : b.eng.initialized = true) (channel : b.dev.CleanChannel)
    (hw : b.words = encode (.write a v) :: ws) :
    b.Reaches 5 { b with
      words := ws
      dev := { b.dev.setReg a v with want := none }
      eng := finishOk { startWrite 0 a v (accept (.write a v) (clearForIssue b.eng)) with
        xbuf := v, sreg := 0x00, tick := b.eng.tick + 5, trace := (wrTrace a v).reverse ++ b.eng.trace } } := by
  obtain ⟨resp, want⟩ := channel
  have coded : decode (encode (.write a v)) = .ok (.write a v) := decode_encode _
  rw [wrTrace, ← requestByte_write]
  refine .issue hw (step_issue rfl hb hn hw) ?_
  refine .running rfl (step_transact rfl coded rfl rfl (RefDevice.answer_status_none resp) rfl) ?_
  refine .running rfl (step_transact rfl coded rfl rfl (RefDevice.answer_writeRequest a want) rfl) ?_
  refine .running rfl (step_transact rfl coded rfl rfl (RefDevice.answer_status_none resp) rfl) ?_
  refine .running rfl (step_answer rfl coded rfl (RefDevice.answer_data v rfl ha) (exec_written _ rfl rfl rfl)) ?_
  exact .refl _

/-- READ at an address but control-setup takes six steps of the bench and gives the register's byte. -/
theorem Bench.reaches_read {b : Bench} {a : VAddr} {x : Byte} {ws : List Word} (ha : a ≠ Config.vControlSetup)
    (hb : b.eng.busy = false) (hn : b.eng.initialized = true) (channel : b.dev.CleanChannel)
    (hw : b.words = encode (.read a) :: ws) (hx : b.dev.reg a = x) :
    b.Reaches 6 { b with
      words := ws
      dev := { b.dev with resp := none }
      eng := finishByte x { startRead 0 a (accept (.read a) (clearForIssue b.eng)) with
        vd := x, xbuf := x, sreg := 0x01, tick := b.eng.tick + 6
        trace := (rdTrace a x).reverse ++ b.eng.trace } } := by
  obtain ⟨resp, want⟩ := channel
  have coded : decode (encode (.read a)) = .ok (.read a) := decode_encode _
  rw [rdTrace, ← requestByte_read]
  refine .issue hw (step_issue rfl hb hn hw) ?_
  refine .running rfl (step_transact rfl coded rfl rfl (RefDevice.answer_status_none resp) rfl) ?_
  refine .running rfl (step_transact rfl coded rfl rfl (RefDevice.answer_status_none resp) rfl) ?_
  refine .running rfl (step_transact rfl coded rfl rfl (RefDevice.answer_readRequest want ha hx) rfl) ?_
  refine .running rfl (step_transact rfl coded rfl rfl (RefDevice.answer_status_some rfl) rfl) ?_
  refine .running rfl (step_answer rfl coded rfl (RefDevice.answer_read rfl) (exec_vread_response _ rfl rfl rfl)) ?_
  exact .refl _

/-- Settles O60: WRITE's run and then READ's, whose register holds the byte just stored. -/
theorem writeThenReadGivesTheByteBack : Obligations.WriteThenReadGivesTheByteBack := by
  unfold Obligations.WriteThenReadGivesTheByteBack
  intro b a v ha hb hn wf channel hw
  obtain ⟨resp, want⟩ := channel
  have stored : (b.dev.setReg a v).reg a = v := RefDevice.reg_setReg wf a v
  have written := Bench.reaches_write ha hb hn ⟨resp, want⟩ hw
  have finished := written.trans (Bench.reaches_read ha rfl hn ⟨resp, rfl⟩ rfl stored)
  have bus (t : State) (h : t.trace = (rdTrace a v).reverse ++ ((wrTrace a v).reverse ++ b.eng.trace)) :
      (busSince b.eng t).filter (· ≠ .settle) = wrTrace a v ++ rdTrace a v := by
    rw [← List.append_assoc] at h
    simp [busSince_append h, wrTrace, rdTrace]
  refine ⟨_, finished.endsAt ⟨rfl, rfl⟩, ?_, rfl, rfl, rfl, rfl, stored, rfl, ⟨rfl, rfl⟩, fun launch => ?_⟩
  · rw [observe, bus _ rfl]
    rfl
  · exact ⟨⟨rfl, launch.engine.2⟩, ⟨rfl, rfl⟩, launch.settled⟩

end Sys2Proof.Machine
end

section
/-! The device controller's commands but INIT, whole: the setters, the lookups and SOFT_RESET with its settle wait
(42_controller R205 to R221). -/
namespace Sys2Proof.Machine

/-! ## The setters (R205, R206, R208 to R211) -/

/-- Settles O33: both rules are one VModify of control-setup. -/
theorem controlSettersRunToTheirFinish : Obligations.ControlSettersRunToTheirFinish :=
  ⟨fun _ => modifyCommandRuns rfl rfl, fun _ => modifyCommandRuns rfl rfl⟩

/-- Settles O34: the four rules are one VModify of led-control each. -/
theorem ledSettersRunToTheirFinish : Obligations.LedSettersRunToTheirFinish :=
  ⟨fun _ => modifyCommandRuns rfl rfl, fun _ => modifyCommandRuns rfl rfl, fun _ => modifyCommandRuns rfl rfl,
    fun _ => modifyCommandRuns rfl rfl⟩

/-! ## The lookups (R220, R221) -/

/-- The finish step of a running lookup: whatever its event, the command's rule looks up (R220, R221). -/
theorem exec_look (i : Instr) {s : State} {e : Event} {rest : List Event} (hb : s.busy = true) (hq : s.seq = .lookup)
    (hi : s.inbox = e :: rest) : exec i s = .next ((ruleOf i).look { s with inbox := rest, tick := s.tick + 1 }) := by
  simp [exec_busy hb, advance, hq, State.pop_cons hi]

/-- A command whose rule makes no transaction: its acceptance, and then its finish step. -/
theorem execRun_lookup {i : Instr} {s : State} {e e' : Event} {rest : List Event} (gate : gateOf i = gateControl)
    (rule : (ruleOf i).start = fun u => u.goto .lookup) (hb : s.busy = false) (hn : s.initialized = true)
    (hi : s.inbox = e :: e' :: rest) :
    execRun i 2 s = .next ((ruleOf i).look
      { accept i (clearForIssue s) with seq := .lookup, inbox := rest, tick := s.tick + 2 }) := by
  have accepted := exec_accepts gate hb hn hi
  rw [rule] at accepted
  exact Eq.trans (execRun_succ 1 accepted) (Eq.trans (execRun_succ 0 (exec_look i rfl rfl rfl)) rfl)

/-- Settles O37: the lookup's two steps, the code by what VARIANT is. -/
theorem getNameRunsToItsFinish : Obligations.GetNameRunsToItsFinish := by
  unfold Obligations.GetNameRunsToItsFinish
  intro s e e' rest hb hn hi
  rw [execRun_lookup rfl rfl hb hn hi]
  obtain ⟨v, hv⟩ : ∃ v, s.variant = v := ⟨_, rfl⟩
  cases v with
  | none => simp [ruleOf, finish, accept, clearForIssue, hv, variantCode]
  | some v => cases v <;> simp [ruleOf, finish, accept, clearForIssue, hv, variantCode]

/-- The result words of VariantA (R152, R221). -/
theorem wavelengthWords_a : wavelengthWords (some .a) = #v[450, 500, 550, 570, 600, 650] := rfl

/-- The result words of VariantB (R152, R221). -/
theorem wavelengthWords_b : wavelengthWords (some .b) = #v[610, 680, 730, 760, 810, 860] := rfl

/-- Settles O38: the lookup's two steps, the words by which variant it is. -/
theorem getWavelengthsRunsToItsFinish : Obligations.GetWavelengthsRunsToItsFinish := by
  unfold Obligations.GetWavelengthsRunsToItsFinish
  intro s v e e' rest hb hn hv hi
  rw [execRun_lookup rfl rfl hb hn hi]
  cases v with
  | a => simp [ruleOf, finish, accept, clearForIssue, hv, wavelengthWords_a]
  | b => simp [ruleOf, finish, accept, clearForIssue, hv, wavelengthWords_b]

/-! ## A VModify up to its data byte (R180) -/

/-- A VModify with no stale byte and no wait, up to its data byte (R180). -/
theorem execRun_vmodify (i : Instr) {s : State} {k : Nat} {s1 s2 c s3 b s4 c4 s5 : Byte} {rest : List Event}
    (hb : s.busy = true) (hq : s.seq = .chan k .vmodify .rChk) (prompt : ReadPrompt s1 s2 s3) (h4 : txv s4 = false)
    (h5 : txv s5 = false) (hi : s.inbox = readAnswers s1 s2 c s3 b ++ (answers [s4, c4, s5] ++ rest)) :
    execRun i 8 s = .next { s with
      seq := .chan k .vmodify .wData, vd := combine b s.mand s.mor, xbuf := s5, sreg := s5
      inbox := rest, tick := s.tick + 8
      trace := .status s5 :: .write (1#1 ++ s.va) :: .status s4 ::
        .read b :: .status s3 :: .write (0#1 ++ s.va) :: .status s2 :: .status s1 :: s.trace } := by
  have response : s.inbox = answers [s1, s2, c, s3] ++ .transport (.ok b) :: (answers [s4, c4, s5] ++ rest) := hi
  refine Eq.trans (execRun_add 4 4 (execRun_vread i hb hq prompt response)) ?_
  refine Eq.trans (execRun_succ 3 (exec_modify_response i hb rfl rfl)) ?_
  exact execRun_vwrite i hb rfl h4 h5 rfl

/-! ## SOFT_RESET (R215) -/

/-- The settle event ends SOFT_RESET with OK (R215). -/
theorem exec_softReset_settled {s : State} {rest : List Event} (hb : s.busy = true) (hq : s.seq = .settle)
    (hi : s.inbox = .timer :: rest) :
    exec .softReset s = .next { s with
      lastStatus := .ok, busy := false, done := true, measAwaiting := false, settling := false, seq := .idle
      trace := .settle :: s.trace, inbox := rest, tick := s.tick + 1 } := by
  rw [exec_busy hb]
  simp only [advance, hq, settleStep, State.peek_cons hi, State.pop_cons hi]
  rfl

/-- The engine is in the settle wait of SOFT_RESET. -/
structure SettleWait (s : State) : Prop where
  busy : s.busy = true
  softReset : decode s.cmdl = .ok .softReset
  seq : s.seq = .settle

/-- Until the settle event or an engine reset, a step of the settle wait changes nothing but HOST_OVERRUN and the fields
of the model's own (R292, R326). -/
theorem step_settleWait {s t : State} (h : SettleWait s) (hs : step s = .next t) (timer : s.peek ≠ .timer)
    (reset : s.peek ≠ .reset) :
    ∃ inbox tick overrun rd, t = { s with
      inbox := inbox, tick := tick, hostOverrun := overrun, hostRd := rd } := by
  have idle (hb : s.busy = false) : False := absurd h.busy (by simp [hb])
  rcases step_cases hs with ⟨i, _, hd, _, _, rfl⟩ | ⟨_, _, hb, _⟩ | ⟨_, _, hb, _⟩ | ⟨w, _, _, rfl⟩ |
    ⟨off, w, _, _, rfl⟩ | ⟨hp, _⟩ | ⟨_, _, rfl⟩
  · have waits : advance (ruleOf i) s = s.pop := by
      rcases settleStep_cases (ruleOf i).settled s with wait | ⟨hp, _⟩
      · simpa [advance, h.seq] using wait
      · exact absurd hp timer
    exact ⟨_, _, _, _, waits⟩
  · exact (idle hb).elim
  · exact (idle hb).elim
  · exact ⟨_, _, _, _, rfl⟩
  · exact ⟨_, _, _, _, rfl⟩
  · exact absurd hp reset
  · exact ⟨_, _, _, _, rfl⟩

/-- What the end of a settle wait that began in `s` leaves in `t` (R215). -/
structure SettledFrom (s t : State) : Prop where
  busy : t.busy = false
  done : t.done = true
  lastStatus : t.lastStatus = .ok
  settling : t.settling = false
  initialized : t.initialized = s.initialized
  variant : t.variant = s.variant
  trace : t.trace = .settle :: s.trace

/-- The step of a run that takes the settle event ends the settle wait. -/
theorem Run.settlesNow {e : Nat → Event} {r : Nat → State} (run : Run e r) {n : Nat} (h : SettleWait (r n))
    (timer : e n = .timer) : SettledFrom (r n) (r (n + 1)) := by
  have settled : step { r n with inbox := [e n] } = exec .softReset { r n with inbox := [e n] } :=
    stepRunsTheDecodedCommand.2 _ _ [] _ h.busy rfl (.inl timer) h.softReset
  have next : exec .softReset { r n with inbox := [.timer] } = .next (r (n + 1)) :=
    timer ▸ settled.symm.trans (run n)
  have ends := (exec_softReset_settled (s := { r n with inbox := [.timer] }) h.busy h.seq rfl).symm.trans next
  rw [← Host.Outcome.next.inj ends]
  exact ⟨rfl, rfl, rfl, rfl, rfl, rfl, rfl⟩

/-- A settle wait ends at the first settle event that comes, by induction on the steps until one does. -/
theorem Run.settles {e : Nat → Event} {r : Nat → State} (run : Run e r) (noReset : NoReset e) (d n : Nat)
    (h : SettleWait (r n)) (comes : e (n + d) = .timer) : ∃ m, n < m ∧ SettledFrom (r n) (r m) := by
  induction d generalizing n with
  | zero => exact ⟨n + 1, Nat.lt_succ_self n, run.settlesNow h comes⟩
  | succ d ih =>
    by_cases timer : e n = .timer
    · exact ⟨n + 1, Nat.lt_succ_self n, run.settlesNow h timer⟩
    · have waiting : SettleWait { r n with inbox := [e n] } := ⟨h.busy, h.softReset, h.seq⟩
      obtain ⟨_, _, _, _, waits⟩ := step_settleWait waiting (run n) timer (noReset n)
      have comes : e (n + 1 + d) = .timer := by rw [← comes, Nat.add_right_comm, Nat.add_assoc]
      obtain ⟨m, hm, settled⟩ := ih (n + 1) (by rw [waits]; exact ⟨h.busy, h.softReset, h.seq⟩) comes
      rw [waits] at settled
      exact ⟨m, Nat.lt_of_succ_lt hm, { settled with }⟩

/-- Settles O35: the VModify of control-setup after the acceptance, the settle event's step, and the run to it. -/
theorem softResetRunsToItsFinish : Obligations.SoftResetRunsToItsFinish := by
  unfold Obligations.SoftResetRunsToItsFinish
  refine ⟨?wait, fun s rest hb hq hi => exec_softReset_settled hb hq hi, ?run⟩
  case wait =>
    intro s e s1 s2 c s3 b s4 c4 s5 c5 rest hb hn prompt h4 h5 hi
    have written : combine b 0xFF 0x80 = b ||| 0x80 := congrArg (· ||| 0x80) BitVec.and_allOnes
    have readRequest : (0#1 ++ Config.vControlSetup : BitVec (1 + 7)) = (0x04 : Byte) := rfl
    have writeRequest : (1#1 ++ Config.vControlSetup : BitVec (1 + 7)) = (0x84 : Byte) := rfl
    refine Eq.trans (execRun_succ 9 (exec_accepts rfl hb hn hi)) ?_
    refine Eq.trans (execRun_add 8 1 (execRun_vmodify _ rfl rfl prompt h4 h5 rfl)) ?_
    refine Eq.trans (execRun_succ 0 (exec_written _ rfl rfl rfl)) ?_
    rw [← written, ← readRequest, ← writeRequest]
    rfl
  case run =>
    intro e r n run noReset comes hb hd hq
    obtain ⟨m, hm, timer⟩ := comes n hq
    obtain ⟨d, rfl⟩ := Nat.exists_eq_add_of_le hm
    obtain ⟨m, hm, settled⟩ := run.settles noReset d n ⟨hb, hd, hq⟩ timer
    obtain ⟨busy, done, lastStatus, settling, initialized, variant, trace⟩ := settled
    exact ⟨m, hm, busy, done, lastStatus, settling, initialized, variant, trace⟩

end Sys2Proof.Machine
end

section
/-! INIT from its issue to its OK finish, and its failures after the probe (42_controller R201 to R203). -/
namespace Sys2Proof.Machine

/-! ## Whole channel ops in a command's rule -/

/-- A run of one step is that step. -/
theorem execRun_one (i : Instr) (s : State) : execRun i 1 s = exec i s := by
  obtain ⟨t, ht⟩ := exec_answers i s
  rw [ht]
  exact execRun_succ 0 ht

/-- After its channel op `k` a rule does `f`, wherever in the op the sequencer was. -/
def Rule.Follows (r : Rule) (k : Nat) (f : State → State) : Prop := ∀ u q, r.after k (u.goto q) = f u

/-- What `WR(a,v)` leaves in the datapath and the trace, `es` being the events still to come (R176). -/
def State.afterWr (a : VAddr) (v : Byte) (es : List Event) (u : State) : State :=
  { u with
    va := a, vd := v, xbuf := v, sreg := 0x00, inbox := es, tick := u.tick + 4
    trace := (wrTrace a v).reverse ++ u.trace }

/-- What `MD(a: x→y)` leaves in the datapath and the trace, `y` being what the masks make of `x` (R180). -/
def State.afterMd (a : VAddr) (mAnd mOr x : Byte) (es : List Event) (u : State) : State :=
  { u with
    va := a, vd := combine x mAnd mOr, mand := mAnd, mor := mOr, xbuf := combine x mAnd mOr, sreg := 0x00
    inbox := es, tick := u.tick + 9, trace := (mdTrace a x (combine x mAnd mOr)).reverse ++ u.trace }

/-- A VWrite with no wait is four transactions, after which the command's rule goes on. -/
theorem execRun_wr {i : Instr} {k : Nat} {f : State → State} (follows : (ruleOf i).Follows k f) {a : VAddr} {v : Byte}
    {u : State} {rest : List Event} (hb : u.busy = true) (hi : u.inbox = wrAnswers ++ rest) :
    execRun i 4 (startWrite k a v u) = .next (f (u.afterWr a v rest)) := by
  have data : u.inbox = answers [0x00, 0x00, 0x00] ++ .transport (.ok 0x00) :: rest := hi
  rw [← follows (u.afterWr a v rest) (.chan k .vwrite .wData)]
  refine Eq.trans (execRun_add 3 1 (execRun_vwrite i hb rfl rfl rfl data)) ?_
  refine Eq.trans (execRun_one i _) (Eq.trans (exec_written i hb rfl rfl) ?_)
  exact congrArg (fun u => Host.Outcome.next ((ruleOf i).after k u)) rfl

/-- A VModify with no stale byte and no wait is nine transactions, after which the command's rule goes on. -/
theorem execRun_md {i : Instr} {k : Nat} {f : State → State} (follows : (ruleOf i).Follows k f) {a : VAddr}
    {mAnd mOr x : Byte} {u : State} {rest : List Event} (hb : u.busy = true) (hi : u.inbox = mdAnswers x ++ rest) :
    execRun i 9 (startModify k a mAnd mOr u) = .next (f (u.afterMd a mAnd mOr x rest)) := by
  have data : u.inbox = readAnswers 0x00 0x00 0x00 0x01 x ++
      (answers [0x00, 0x00, 0x00] ++ .transport (.ok 0x00) :: rest) := hi
  rw [← follows (u.afterMd a mAnd mOr x rest) (.chan k .vmodify .wData)]
  refine Eq.trans (execRun_add 8 1 (execRun_vmodify i hb rfl ⟨rfl, rfl, rfl⟩ rfl rfl data)) ?_
  refine Eq.trans (execRun_one i _) (Eq.trans (exec_written i hb rfl rfl) ?_)
  exact congrArg (fun u => Host.Outcome.next ((ruleOf i).after k u)) rfl

/-! ## INIT (R201, R202) -/

/-- INIT at PROBE_ADDR is accepted on an uninitialized engine, and its probe begins (R201, R274). -/
theorem exec_init_accepts (mode gain : BitVec 2) (itime : Byte) {s : State} {e : Event} {rest : List Event}
    (hb : s.busy = false) (hn : s.initialized = false) (hi : s.inbox = e :: rest) :
    exec (.init mode gain itime) s = .next { s with
      busy := true, done := false, resultValid := false, resultWords := false, cleanupFailed := false
      cmdl := encode (.init mode gain itime), va := 0x01, seq := .chan 0 .vread .rChk
      inbox := rest, tick := s.tick + 1 } :=
  (execAt_eq (.inr (.inr rfl))).symm.trans (execAt_init_accepts Config.probeAddr mode gain itime hb hn hi)

/-- INIT's issue and a probe that reads a variant's tag: VARIANT is recorded and the LED baseline begins (R201). -/
theorem execRun_init_probe (mode gain : BitVec 2) (itime : Byte) {s : State} {e : Event} {x : Byte} {v : Variant}
    {rest : List Event} (hb : s.busy = false) (hn : s.initialized = false) (tag : variantOf x = some v)
    (hi : s.inbox = e :: (rdAnswers x ++ rest)) :
    execRun (.init mode gain itime) 6 s = .next (startModify 1 Config.vLedControl mAndBulbCur (mOrBulbCur 0)
      { accept (.init mode gain itime) (clearForIssue s) with
        variant := some v, vd := x, xbuf := x, sreg := 0x01, inbox := rest, tick := s.tick + 6
        trace := (rdTrace 0x01 x).reverse ++ s.trace }) := by
  refine Eq.trans (execRun_succ 5 (exec_init_accepts mode gain itime hb hn hi)) ?_
  refine Eq.trans (execRun_add 4 1 (execRun_vread _ rfl rfl ⟨rfl, rfl, rfl⟩ rfl)) ?_
  exact (execRun_one _ _).trans (exec_init_probe_of_variant mode gain itime rfl rfl rfl tag)

/-- What INIT's rule does after each of its channel ops but the probe: the next op, and after the last the OK finish
with INITIALIZED set (R201, R202). -/
theorem init_follows (mode gain : BitVec 2) (itime : Byte) :
    (ruleOf (.init mode gain itime)).Follows 1 (startModify 2 Config.vLedControl mAndBulb (mOrBulb 0)) ∧
    (ruleOf (.init mode gain itime)).Follows 2 (startModify 3 Config.vLedControl mAndIndCur (mOrIndCur 0)) ∧
    (ruleOf (.init mode gain itime)).Follows 3 (startModify 4 Config.vLedControl mAndInd (mOrInd 0)) ∧
    (ruleOf (.init mode gain itime)).Follows 4 (startWrite 5 Config.vIntTime itime) ∧
    (ruleOf (.init mode gain itime)).Follows 5 (startModify 6 Config.vControlSetup mAndGain (mOrGain gain)) ∧
    (ruleOf (.init mode gain itime)).Follows 6 (startModify 7 Config.vControlSetup mAndMode (mOrMode mode)) ∧
    (ruleOf (.init mode gain itime)).Follows 7 (fun u => finishOk { u with initialized := true }) :=
  ⟨fun _ _ => rfl, fun _ _ => rfl, fun _ _ => rfl, fun _ _ => rfl, fun _ _ => rfl, fun _ _ => rfl, fun _ _ => rfl⟩

/-- With an empty or-mask COMBINE only clears (R142). -/
theorem combine_zero (x mAnd : Byte) : combine x mAnd 0 = x &&& mAnd := BitVec.or_zero

/-- Settles O40: the probe, then one channel op after another. -/
theorem initRunsToItsFinish : Obligations.InitRunsToItsFinish := by
  unfold Obligations.InitRunsToItsFinish
  intro mode gain itime s e v x1 x2 x3 x4 y1 y2 rest hb hn hi
  simp only [List.cons_append, List.append_assoc] at hi
  obtain ⟨bulb, indCur, ind, time, gains, modes, ends⟩ := init_follows mode gain itime
  have probe := execRun_init_probe mode gain itime (v := v) hb hn (by cases v <;> rfl) hi
  refine ⟨_, (execRun_add 6 58 probe).trans <|
    (execRun_add 9 49 (execRun_md bulb rfl rfl)).trans <|
    (execRun_add 9 40 (execRun_md indCur rfl rfl)).trans <|
    (execRun_add 9 31 (execRun_md ind rfl rfl)).trans <|
    (execRun_add 9 22 (execRun_md time rfl rfl)).trans <|
    (execRun_add 4 18 (execRun_wr gains rfl rfl)).trans <|
    (execRun_add 9 9 (execRun_md modes rfl rfl)).trans <|
    execRun_md ends rfl rfl, rfl, rfl, rfl, rfl, rfl, rfl, rfl, rfl, rfl, rfl, rfl, rfl, ?_⟩
  rw [← combine_zero x1, ← combine_zero x2, ← combine_zero x3, ← combine_zero x4]
  simp only [State.busTrace, finishOk, finish, State.afterMd, State.afterWr, accept, clearForIssue,
    List.reverse_append, List.reverse_reverse, List.append_assoc]
  rfl

/-! ## INIT failed after its probe, and issued again (R203) -/

/-- A transaction that returned an error ends every command but TAKE_MEAS_ILLUM (R271, R282). -/
theorem exec_error {i : Instr} {s : State} {k : Nat} {op : OpKind} {ph : Phase} {c : TErr} {rest : List Event}
    (hillum : i ≠ .takeMeasIllum) (hb : s.busy = true) (hq : s.seq = .chan k op ph) (hp : ph.isSleep = false)
    (hi : s.inbox = .transport (.error c) :: rest) :
    exec i s = .next (finishFail (.transport c) (s.pop.log (.error c))) := by
  simp [exec_busy hb, advance, hq, hp, xferStep, State.peek_cons hi, ruleOf_fail hillum]

/-- An abort at a sleep of a channel op ends every command but TAKE_MEAS_ILLUM (R271, R280). -/
theorem exec_aborted {i : Instr} {s : State} {k : Nat} {op : OpKind} {ph : Phase} {rest : List Event}
    (hillum : i ≠ .takeMeasIllum) (hb : s.busy = true) (hq : s.seq = .chan k op ph) (hp : ph.isSleep = true)
    (hi : s.inbox = .abort :: rest) : exec i s = .next (finishFail .aborted (s.pop.log .sleepAborted)) := by
  simp [exec_busy hb, advance, hq, hp, sleepStep, State.peek_cons hi, ruleOf_fail hillum]

/-- Settles O41: a failure keeps INITIALIZED and VARIANT, and the engine it leaves idle accepts any INIT. -/
theorem failedInitMayBeRetried : Obligations.FailedInitMayBeRetried := by
  unfold Obligations.FailedInitMayBeRetried
  intro mode gain itime s k op ph e e' rest hb hn hq hf hi
  have hillum : Instr.init mode gain itime ≠ .takeMeasIllum := by simp
  have later : s.inbox.tail = e' :: rest := congrArg List.tail hi
  have retries {t : State} (idle : t.busy = false) (uninitialized : t.initialized = false)
      (later : t.inbox = e' :: rest) (mode' gain' : BitVec 2) (itime' : Byte) :
      ∃ u, exec (.init mode' gain' itime') t = .next u ∧ u.busy = true ∧ u.seq = .chan 0 .vread .rChk ∧
        u.va = 0x01 :=
    ⟨_, exec_init_accepts mode' gain' itime' idle uninitialized later, rfl, rfl, rfl⟩
  rcases hf with ⟨sleep, rfl⟩ | ⟨transaction, c, rfl⟩
  · exact ⟨_, exec_aborted hillum hb hq sleep hi, hn, rfl, rfl, by rw [sleep]; rfl, retries rfl hn later⟩
  · exact ⟨_, exec_error hillum hb hq transaction hi, hn, rfl, rfl, by rw [transaction]; rfl, retries rfl hn later⟩

end Sys2Proof.Machine
end

section
/-! The measurement of TAKE_MEAS and TAKE_MEAS_ILLUM (43_measurement R240 to R242, R245): its steps, its poll, and the two
commands from issue to their OK finish. -/
namespace Sys2Proof.Machine

/-! ## A whole VRead in a command's rule -/

/-- What a rule does after a channel op, from the state its last transaction leaves. -/
theorem Rule.Follows.after {r : Rule} {k : Nat} {f : State → State} (h : r.Follows k f) (u : State) :
    r.after k u = f u := h u u.seq

/-- What `RD(a→x)` leaves in the datapath and the trace, `es` being the events still to come (R172). -/
def State.afterRd (a : VAddr) (x : Byte) (es : List Event) (u : State) : State :=
  { u with
    va := a, vd := x, xbuf := x, sreg := 0x01, inbox := es, tick := u.tick + 5
    trace := (rdTrace a x).reverse ++ u.trace }

/-- A VRead with no stale byte and no wait is five transactions, after which the command's rule goes on. -/
theorem execRun_rd {i : Instr} {k : Nat} {f : State → State} (follows : (ruleOf i).Follows k f) {a : VAddr} {x : Byte}
    {u : State} {rest : List Event} (hb : u.busy = true) (hi : u.inbox = rdAnswers x ++ rest) :
    execRun i 5 (startRead k a u) = .next (f (u.afterRd a x rest)) := by
  have response : u.inbox = answers [0x00, 0x00, 0x00, 0x01] ++ .transport (.ok x) :: rest := hi
  rw [← follows (u.afterRd a x rest) (.chan k .vread .rResp)]
  refine Eq.trans (execRun_add 4 1 (execRun_vread i hb rfl ⟨rfl, rfl, rfl⟩ response)) ?_
  refine Eq.trans (execRun_one i _) (Eq.trans (exec_vread_response i hb rfl rfl) ?_)
  exact congrArg (fun u => Host.Outcome.next ((ruleOf i).after k u)) rfl

/-! ## MeasureBody (R241) -/

/-- The poll of data-available decides: seen, MEAS_AWAITING is cleared and the command does `exit`; else it sleeps before
channel op `k` polls again (R241). -/
def measureDecide (k : Nat) (exit : State → State) (s : State) : State :=
  if fieldDa s.vd then exit { s with measAwaiting := false } else s.goto (.daSleep k)

theorem measureDecide_of_available (k : Nat) (exit : State → State) {s : State} (h : fieldDa s.vd = true) :
    measureDecide k exit s = exit { s with measAwaiting := false } := if_pos h

theorem measureDecide_of_unavailable (k : Nat) (exit : State → State) {s : State} (h : fieldDa s.vd = false) :
    measureDecide k exit s = s.goto (.daSleep k) := by
  simp [measureDecide, h]

/-- Command `i` has MeasureBody as its channel ops `base`, `base + 1` and `base + 2`, and does `exit` once data-available
was seen. -/
structure Measures (i : Instr) (base : Nat) (exit : State → State) : Prop where
  cleared : (ruleOf i).Follows base fun u =>
    startModify (base + 1) Config.vControlSetup mAndMode (mOrMode Config.oneshotMode) { u with measAwaiting := true }
  forced : (ruleOf i).Follows (base + 1) (measurePoll (base + 2))
  polled : (ruleOf i).Follows (base + 2) (measureDecide (base + 2) exit)
  wake : (ruleOf i).wake = measurePoll

theorem takeMeas_measures : Measures .takeMeas 0 finishOk :=
  ⟨fun _ _ => rfl, fun _ _ => rfl, fun _ _ => rfl, rfl⟩

theorem takeMeasIllum_measures : Measures .takeMeasIllum 1 illumCleanup :=
  ⟨fun _ _ => rfl, fun _ _ => rfl, fun _ _ => rfl, rfl⟩

/-- The two commands that measure. -/
theorem exists_measures {i : Instr} {base : Nat} (h : i = .takeMeas ∧ base = 0 ∨ i = .takeMeasIllum ∧ base = 1) :
    ∃ exit, Measures i base exit := by
  rcases h with ⟨rfl, rfl⟩ | ⟨rfl, rfl⟩
  · exact ⟨_, takeMeas_measures⟩
  · exact ⟨_, takeMeasIllum_measures⟩

section
variable {i : Instr} {base : Nat} {exit : State → State} (measures : Measures i base exit) {s : State} {b : Byte}
  {rest : List Event}
include measures

/-! One step of the measurement -/

/-- The clear-data-available write's completion sets MEAS_AWAITING and begins the one-shot modify. -/
theorem Measures.exec_cleared (hb : s.busy = true) (hi : s.inbox = .transport (.ok b) :: rest)
    (hq : s.seq = .chan base .vmodify .wData) :
    exec i s = .next { s with
      measAwaiting := true, va := 0x04, mand := 0xF3, mor := 0x0C, seq := .chan (base + 1) .vmodify .rChk
      xbuf := s.vd, trace := .write s.vd :: s.trace, inbox := rest, tick := s.tick + 1 } := by
  rw [exec_written i hb hq hi, measures.cleared.after, State.pop_cons hi]
  rfl

/-- The one-shot write's completion begins the poll. -/
theorem Measures.exec_forced (hb : s.busy = true) (hi : s.inbox = .transport (.ok b) :: rest)
    (hq : s.seq = .chan (base + 1) .vmodify .wData) :
    exec i s = .next { s with
      va := 0x04, seq := .chan (base + 2) .vread .rChk, xbuf := s.vd
      trace := .write s.vd :: s.trace, inbox := rest, tick := s.tick + 1 } := by
  rw [exec_written i hb hq hi, measures.forced.after, State.pop_cons hi]
  rfl

/-- The poll's response decides. -/
theorem Measures.exec_polled (hb : s.busy = true) (hi : s.inbox = .transport (.ok b) :: rest)
    (hq : s.seq = .chan (base + 2) .vread .rResp) :
    exec i s = .next (measureDecide (base + 2) exit { s with
      vd := b, xbuf := b, trace := .read b :: s.trace, inbox := rest, tick := s.tick + 1 }) := by
  rw [exec_vread_response i hb hq hi, measures.polled.after, State.pop_cons hi]
  rfl

/-- The end of the data-available sleep polls again. -/
theorem Measures.exec_woken {k : Nat} (hb : s.busy = true) (hi : s.inbox = .timer :: rest)
    (hq : s.seq = .daSleep k) :
    exec i s = .next (measurePoll k { s with trace := .sleep :: s.trace, inbox := rest, tick := s.tick + 1 }) := by
  rw [exec_busy hb]
  simp only [advance, hq, sleepStep, State.peek_cons hi, State.pop_cons hi, measures.wake]
  rfl

/-! Runs of the measurement -/

/-- MeasureBody from its begin to its first poll, prompt: data-available is cleared and one-shot mode forced. -/
theorem Measures.execRun_start {x y : Byte} (hb : s.busy = true)
    (hi : s.inbox = mdAnswers x ++ (mdAnswers y ++ rest)) :
    execRun i 18 (measureStart base s) = .next (measurePoll (base + 2)
      (State.afterMd Config.vControlSetup mAndMode (mOrMode Config.oneshotMode) y rest
        { s.afterMd Config.vControlSetup mAndDa 0x00 x (mdAnswers y ++ rest) with measAwaiting := true })) :=
  (execRun_add 9 9 (execRun_md measures.cleared hb hi)).trans (execRun_md measures.forced hb rfl)

/-- A prompt poll that sees data-available clears MEAS_AWAITING, and the command goes on. -/
theorem Measures.execRun_available (hb : s.busy = true) (hd : fieldDa b = true)
    (hi : s.inbox = rdAnswers b ++ rest) :
    execRun i 5 (measurePoll (base + 2) s) =
      .next (exit { s.afterRd Config.vControlSetup b rest with measAwaiting := false }) := by
  rw [measurePoll, execRun_rd measures.polled hb hi]
  exact congrArg _ (measureDecide_of_available _ exit hd)

/-- A prompt poll that sees data-available clear leads to the poll's sleep. -/
theorem Measures.execRun_unavailable (hb : s.busy = true) (hd : fieldDa b = false)
    (hi : s.inbox = rdAnswers b ++ rest) :
    execRun i 5 (measurePoll (base + 2) s) =
      .next ((s.afterRd Config.vControlSetup b rest).goto (.daSleep (base + 2))) := by
  rw [measurePoll, execRun_rd measures.polled hb hi]
  exact congrArg _ (measureDecide_of_unavailable _ exit hd)

/-- A round of the poll that sees data-available clear: the sleep's end and a VRead, and the poll sleeps again. -/
theorem Measures.execRun_round (hb : s.busy = true) (hq : s.seq = .daSleep (base + 2)) (hd : fieldDa b = false)
    (hi : s.inbox = .timer :: (rdAnswers b ++ rest)) :
    execRun i 6 s = .next (State.afterRd Config.vControlSetup b rest
      { s with trace := .sleep :: s.trace, tick := s.tick + 1 }) := by
  refine Eq.trans (execRun_succ 5 (measures.exec_woken hb hi hq)) ?_
  refine Eq.trans (measures.execRun_unavailable hb hd rfl) ?_
  rw [← hq]
  rfl

end

/-- Settles O43: one lemma of `Measures` per step; the bulb-on modify's end is TAKE_MEAS_ILLUM's own. -/
theorem measurementStateMachine : Obligations.MeasurementStateMachine := by
  unfold Obligations.MeasurementStateMachine
  intro i k s b rest hb h
  obtain ⟨exit, measures⟩ := exists_measures h
  refine ⟨?bulbOn, fun hi hq => measures.exec_cleared hb hi hq, fun hi hq => measures.exec_forced hb hi hq,
    fun hi hq hd => ?unavailable, ?finish, ?cleanup, fun hi hq => measures.exec_woken hb hi hq⟩
  case bulbOn =>
    rintro rfl hi hq
    rw [exec_written _ hb hq hi, State.pop_cons hi]
    rfl
  case unavailable =>
    rw [measures.exec_polled hb hi hq]
    exact congrArg _ (measureDecide_of_unavailable _ exit hd)
  case finish =>
    rintro rfl hi hq hd
    rw [takeMeas_measures.exec_polled hb hi hq]
    exact congrArg _ (measureDecide_of_available _ finishOk hd)
  case cleanup =>
    rintro rfl hi hq hd
    rw [takeMeasIllum_measures.exec_polled hb hi hq]
    exact congrArg _ (measureDecide_of_available _ illumCleanup hd)

/-- Settles O24: by induction on the number of rounds, one of which leads from the poll's sleep back to it. -/
theorem dataAvailablePollIsUnbounded : Obligations.DataAvailablePollIsUnbounded := by
  unfold Obligations.DataAvailablePollIsUnbounded
  intro n i k s b rest h hb hq hd hi
  obtain ⟨base, exit, measures, rfl⟩ : ∃ base exit, Measures i base exit ∧ k = base + 2 := by
    rcases h with ⟨rfl, rfl⟩ | ⟨rfl, rfl⟩
    · exact ⟨0, _, takeMeas_measures, rfl⟩
    · exact ⟨1, _, takeMeasIllum_measures, rfl⟩
  clear h
  induction n generalizing s with
  | zero => exact ⟨s, rfl, hq, hb, hi, rfl, (List.append_nil _).symm⟩
  | succ n ih =>
    rw [List.replicate_succ, List.flatten_cons, List.append_assoc] at hi
    have round := measures.execRun_round hb hq hd hi
    obtain ⟨t, run, seq, busy, inbox, awaiting, trace⟩ := ih
      (State.afterRd Config.vControlSetup b _ { s with trace := .sleep :: s.trace, tick := s.tick + 1 }) hb rfl hq
    refine ⟨t, ?_, seq, busy, inbox, awaiting, ?_⟩
    · rw [show 6 * (n + 1) = 6 + 6 * n by omega]
      exact (execRun_add 6 _ round).trans run
    · rw [trace]
      simp only [State.busTrace, State.afterRd, Config.vControlSetup, List.replicate_succ, List.flatten_cons,
        List.reverse_append, List.reverse_cons, List.reverse_reverse, List.append_assoc, List.cons_append,
        List.nil_append]

/-- Settles O42: the acceptance, MeasureBody to its poll, the poll that sleeps, and the one that finishes. -/
theorem takeMeasRunsToItsFinish : Obligations.TakeMeasRunsToItsFinish := by
  unfold Obligations.TakeMeasRunsToItsFinish
  intro s e x y p q rest hb hn hp hd hi
  simp only [List.cons_append, List.append_assoc] at hi
  have measures := takeMeas_measures
  refine ⟨_, (execRun_succ 29 (exec_accepts rfl hb hn hi)).trans <|
    (execRun_add 18 11 (measures.execRun_start rfl rfl)).trans <|
    (execRun_add 5 6 (measures.execRun_unavailable rfl hp rfl)).trans <|
    (execRun_succ 5 (measures.exec_woken rfl rfl rfl)).trans <|
    measures.execRun_available rfl hd rfl, rfl, rfl, rfl, rfl, rfl, rfl, rfl, hn, rfl, rfl, rfl, rfl, rfl, ?_⟩
  rw [← combine_zero x]
  simp only [State.busTrace, finishOk, finish, State.afterMd, State.afterRd, State.goto, accept, clearForIssue,
    List.reverse_cons, List.reverse_append, List.reverse_reverse, List.append_assoc]
  rfl

end Sys2Proof.Machine
end

section
/-! TAKE_MEAS_ILLUM: its run from issue to its OK finish, and its failures (43_measurement R245, R246). -/
namespace Sys2Proof.Machine

/-! ## The end of the command (R245) -/

theorem illumEnd_of_none {s : State} (h : s.err1 = none) : illumEnd s = finishOk s := by
  simp [illumEnd, h]

theorem illumEnd_of_some {s : State} {f : Failure} (h : s.err1 = some f) : illumEnd s = finishFail f s := by
  simp [illumEnd, h]

theorem finishFail_goto (f : Failure) (q : Seq) (s : State) : finishFail f (s.goto q) = finishFail f s := by
  cases f <;> rfl

/-- The bulb-on modify is followed by MeasureBody, the bulb-off modify by the end (R245). -/
theorem takeMeasIllum_follows :
    (ruleOf .takeMeasIllum).Follows 0 (measureStart 1) ∧ (ruleOf .takeMeasIllum).Follows 4 illumEnd := by
  refine ⟨fun _ _ => rfl, fun u q => ?_⟩
  show illumEnd (u.goto q) = illumEnd u
  cases h : u.err1 with
  | none => exact (illumEnd_of_none h).trans (illumEnd_of_none h).symm
  | some f => exact (illumEnd_of_some h).trans ((finishFail_goto f q u).trans (illumEnd_of_some h).symm)

/-- Settles O44: the bulb-on modify, MeasureBody whose first poll sees data-available, and the bulb-off modify, after
which no failure is recorded. -/
theorem illumRunsToItsFinish : Obligations.IllumRunsToItsFinish := by
  unfold Obligations.IllumRunsToItsFinish
  intro s e l x y q m rest hb hn hd hi
  simp only [List.cons_append, List.append_assoc] at hi
  obtain ⟨bulbOn, ends⟩ := takeMeasIllum_follows
  have measures := takeMeasIllum_measures
  refine ⟨_, (execRun_succ 41 (exec_accepts rfl hb hn hi)).trans <|
    (execRun_add 9 32 (execRun_md bulbOn rfl rfl)).trans <|
    (execRun_add 18 14 (measures.execRun_start rfl rfl)).trans <|
    (execRun_add 5 9 (measures.execRun_available rfl hd rfl)).trans <|
    (execRun_md ends rfl rfl).trans (congrArg _ (illumEnd_of_none rfl)),
    rfl, rfl, rfl, rfl, rfl, rfl, rfl, rfl, hn, rfl, rfl, rfl, rfl, rfl, ?_⟩
  rw [← combine_zero x, ← combine_zero m]
  simp only [State.busTrace, finishOk, finish, State.afterMd, State.afterRd, accept, clearForIssue,
    List.reverse_append, List.reverse_reverse, List.append_assoc]
  rfl

/-! ## A failing step (R280, R282) -/

/-- A transaction that returns an error is its command's failure, with the transport's code. -/
theorem exec_transaction_failed (i : Instr) {s : State} {k : Nat} {op : OpKind} {ph : Phase} {x : Xfer} {c : TErr}
    {rest : List Event} (hb : s.busy = true) (hq : s.seq = .chan k op ph) (hx : s.request = some x)
    (hi : s.inbox = .transport (.error c) :: rest) :
    exec i s = .next ((ruleOf i).fail k (.transport c) { s with
      trace := .error c :: s.trace, inbox := rest, tick := s.tick + 1 }) := by
  have inFlight : ph.request s = some x := by simpa [State.request, hq] using hx
  rw [exec_busy hb]
  simp only [advance, hq, Phase.isSleep_of_request inFlight, xferStep, State.peek_cons hi, State.pop_cons hi]
  rfl

/-- An abort at a sleep, of a channel poll or of the data-available poll, is its command's failure. -/
theorem exec_sleep_aborted (i : Instr) {s : State} {k : Nat} {op : OpKind} {ph : Phase} {rest : List Event}
    (hb : s.busy = true) (hq : s.seq = .chan k op ph ∧ ph.isSleep = true ∨ s.seq = .daSleep k)
    (hi : s.inbox = .abort :: rest) :
    exec i s = .next ((ruleOf i).fail k .aborted { s with
      trace := .sleepAborted :: s.trace, inbox := rest, tick := s.tick + 1 }) := by
  rw [exec_busy hb]
  rcases hq with ⟨hq, sleeps⟩ | hq
  · simp only [advance, hq, sleeps, if_true, sleepStep, State.peek_cons hi, State.pop_cons hi]
    rfl
  · simp only [advance, hq, sleepStep, State.peek_cons hi, State.pop_cons hi]
    rfl

/-! ## A failure of TAKE_MEAS_ILLUM (R246) -/

/-- Before the cleanup a failure is recorded, and the bulb-off modify begins. -/
theorem takeMeasIllum_fail_early {k : Nat} (hk : k < 4) (f : Failure) (s : State) :
    (ruleOf .takeMeasIllum).fail k f s = illumCleanup { s with err1 := some f, measAwaiting := false } :=
  if_pos hk

/-- In the cleanup CLEANUP_FAILED is set and the first failure ends the command, this one where there was none. -/
theorem takeMeasIllum_fail_cleanup (f : Failure) (s : State) :
    (ruleOf .takeMeasIllum).fail 4 f s =
      finishFail (s.err1.getD f) { s with cleanupFailed := true, err1 := some (s.err1.getD f) } := rfl

/-- Settles O45: the failing step, before the cleanup. -/
theorem illumFailureStartsTheCleanup : Obligations.IllumFailureStartsTheCleanup := by
  unfold Obligations.IllumFailureStartsTheCleanup
  intro s k op ph rest hb hk
  refine ⟨fun x c hq hx hi => ?_, fun hq hi => ?_⟩
  · rw [exec_transaction_failed _ hb hq hx hi, takeMeasIllum_fail_early hk]
    rfl
  · rw [exec_sleep_aborted _ hb hq hi, takeMeasIllum_fail_early hk]
    rfl

/-- Settles O46: the end after the last write, and the two failing steps in the cleanup, each by what was recorded before
it. -/
theorem illumReportsTheFirstFailure : Obligations.IllumReportsTheFirstFailure := by
  unfold Obligations.IllumReportsTheFirstFailure
  intro s b c op ph x rest hb
  refine ⟨fun hq hi => ?written, fun hq hx hi => ?failed, fun hq sleeps hi => ?aborted⟩
  case written =>
    rw [exec_written _ hb hq hi, takeMeasIllum_follows.2.after, State.pop_cons hi]
    rcases s.err1 with _ | e | _ <;> rfl
  case failed =>
    rw [exec_transaction_failed _ hb hq hx hi, takeMeasIllum_fail_cleanup]
    rcases s.err1 with _ | e | _ <;> rfl
  case aborted =>
    rw [exec_sleep_aborted _ hb (.inl ⟨hq, sleeps⟩) hi, takeMeasIllum_fail_cleanup]
    rcases s.err1 with _ | e | _ <;> rfl

/-! ## Where the command can end (R330) -/

/-- After a channel op before the cleanup the command still runs: the next op, the poll's sleep or the cleanup begins. -/
theorem illumAfter_busy {k : Nat} (hk : k < 4) {s : State} (hb : s.busy = true) : (illumAfter k s).busy = true := by
  unfold illumAfter
  rw [if_pos hk]
  unfold measureAfter
  repeat' split
  all_goals exact hb

/-- A channel op of TAKE_MEAS_ILLUM's rule is before the cleanup, or is the bulb-off modify. -/
theorem takeMeasIllum_op {k : Nat} {op : OpKind} {ph : Phase} (h : position .takeMeasIllum (.chan k op ph)) :
    k < 4 ∨ k = 4 ∧ op = .vmodify := by
  obtain ⟨hop, -⟩ := h
  simp only [ruleOp] at hop
  split at hop
  next early => exact .inl (by omega)
  next =>
    split at hop
    next poll => exact .inl (by omega)
    next =>
      split at hop
      next cleanup => exact .inr ⟨cleanup, (Option.some.inj hop).symm⟩
      next => exact nomatch hop

/-- Settles O47: no step ends the command but one after a channel op or on a failure, and before the cleanup these go on
to MeasureBody or to the cleanup. -/
theorem illumEndsOnlyFromTheCleanup : Obligations.IllumEndsOnlyFromTheCleanup := by
  unfold Obligations.IllumEndsOnlyFromTheCleanup
  intro s t hb pos hexec
  obtain rfl : advance (ruleOf .takeMeasIllum) s = t := by simpa [exec_busy hb] using hexec
  have running {P : Prop} {u : State} (h : u.busy = true) : u.busy = false → P := by simp [h]
  have early {k : Nat} {op : OpKind} {ph : Phase} {u : State} (hq : s.seq = .chan k op ph)
      (h : k < 4 → u.busy = true) : u.busy = false → ∃ ph, s.seq = .chan 4 .vmodify ph := by
    rw [hq] at pos ⊢
    rcases takeMeasIllum_op pos with hk | ⟨rfl, rfl⟩
    · exact running (h hk)
    · exact fun _ => ⟨ph, rfl⟩
  have atSleep {k : Nat} (hq : s.seq = .daSleep k) : k < 4 := by
    rw [hq] at pos
    rcases pos with ⟨c, _⟩ | ⟨_, rfl⟩
    · exact nomatch c
    · decide
  have recorded {k : Nat} (f : Failure) (e : BusEvent) (hk : k < 4) :
      ((ruleOf .takeMeasIllum).fail k f (s.pop.log e)).busy = true := by
    rw [takeMeasIllum_fail_early hk]
    exact hb
  apply advance_elim (P := fun t => t.busy = false → ∃ ph, s.seq = .chan 4 .vmodify ph)
  case wait => exact running hb
  case next =>
    intro k op ph b ph' _ _ _ _
    rw [State.transact_frame]
    exact running hb
  case modifyRead => exact fun k b _ _ => running hb
  case response => exact fun k op b hq _ _ => early hq fun hk => illumAfter_busy hk hb
  case written => exact fun k op b hq _ => early hq fun hk => illumAfter_busy hk hb
  case error => exact fun k op ph e hq _ _ => early hq (recorded _ _)
  case slept => exact fun k op ph ph' _ _ _ _ => running hb
  case aborted => exact fun k op ph hq _ _ => early hq (recorded _ _)
  case woken => exact fun k _ _ => running hb
  case awaitAborted => exact fun k hq _ => running (recorded _ _ (atSleep hq))
  case settled => exact fun _ _ => running hb
  case look => exact fun _ => running hb

end Sys2Proof.Machine
end

section
/-! READ_CAL from its issue to its OK finish (43_measurement R250, 40_conversion R160). -/
namespace Sys2Proof.Machine

/-! ## One byte -/

/-- What the VRead of byte `j` of group `g` leaves once the byte has joined ACC, `es` being the events still to come. -/
def State.calByte (g : BitVec 3) (j : BitVec 2) (x : Byte) (es : List Event) (u : State) : State :=
  { u with
    gk := g, bj := j, va := calAddr g j, vd := x, xbuf := x, sreg := 0x01, acc := accumulate u.acc x
    inbox := es, tick := u.tick + 5, trace := (rdTrace (calAddr g j) x).reverse ++ u.trace }

/-- READ_CAL takes up the byte after each VRead. -/
theorem readCal_follows : (ruleOf .readCal).Follows 0 calAfter := fun _ _ => rfl

/-- Below the last byte of a group, READ_CAL reads the group's next byte. -/
theorem calAfter_of_lt {s : State} (h : s.bj.toNat < 3) :
    calAfter s = calRead s.gk (s.bj + 1) { s with acc := accumulate s.acc s.vd } := by
  rcases calAfter_cases s with ⟨_, e⟩ | ⟨h', _⟩ | ⟨h', _⟩
  · exact e
  · omega
  · omega

/-- A byte of READ_CAL, prompt, is five transactions. -/
theorem execRun_calByte {g : BitVec 3} {j : BitVec 2} {x : Byte} {u : State} {rest : List Event} (hb : u.busy = true)
    (hi : u.inbox = rdAnswers x ++ rest) :
    execRun .readCal 5 (calRead g j u) =
      .next (calAfter (State.afterRd (calAddr g j) x rest { u with gk := g, bj := j })) :=
  execRun_rd readCal_follows (u := { u with gk := g, bj := j }) hb hi

/-- A byte of READ_CAL below the last of its group leads to the next one. -/
theorem execRun_calByte_of_lt {g : BitVec 3} (j j' : BitVec 2) {x : Byte} {u : State} {rest : List Event}
    (hj : j.toNat < 3 ∧ j + 1 = j') (hb : u.busy = true) (hi : u.inbox = rdAnswers x ++ rest) :
    execRun .readCal 5 (calRead g j u) = .next (calRead g j' (u.calByte g j x rest)) := by
  obtain ⟨below, rfl⟩ := hj
  exact (execRun_calByte hb hi).trans (congrArg _ (calAfter_of_lt below))

/-! ## One group -/

/-- The four bytes of a group. -/
structure CalGroup where
  b0 : Byte
  b1 : Byte
  b2 : Byte
  b3 : Byte

/-- F32 of a group, the byte of the lowest address the most significant (R160). -/
def CalGroup.word (c : CalGroup) : Word := f32 c.b0 c.b1 c.b2 c.b3

/-- The answers of a group's four VReads. -/
def CalGroup.answers (c : CalGroup) : List Event :=
  rdAnswers c.b0 ++ rdAnswers c.b1 ++ rdAnswers c.b2 ++ rdAnswers c.b3

/-- The trace of the four VReads of group `g`. -/
def CalGroup.busTrace (g : BitVec 3) (c : CalGroup) : List BusEvent :=
  rdTrace (calAddr g 0) c.b0 ++ rdTrace (calAddr g 1) c.b1 ++ rdTrace (calAddr g 2) c.b2 ++ rdTrace (calAddr g 3) c.b3

/-- What the VReads of group `g` leave, its word in ACC and STAGE. -/
def State.afterGroup (g : BitVec 3) (c : CalGroup) (es : List Event) (u : State) : State :=
  { u with
    gk := g, bj := 3, va := calAddr g 3, vd := c.b3, xbuf := c.b3, sreg := 0x01, acc := c.word
    stage := u.stage.setIfInBounds g.toNat c.word, inbox := es, tick := u.tick + 20
    trace := (c.busTrace g).reverse ++ u.trace }

/-- What READ_CAL does after group `g`: the next group, or the OK finish with the staged words (R250). -/
def calNext (g : BitVec 3) (u : State) : State :=
  if g.toNat < 5 then calRead (g + 1) 0 u else finishWords u.stage u

/-- After the last byte of a group, its word is staged and READ_CAL goes on. -/
theorem calAfter_of_last {s : State} (h : s.bj = 3) :
    calAfter s = calNext s.gk { s with
      acc := accumulate s.acc s.vd
      stage := s.stage.setIfInBounds s.gk.toNat (accumulate s.acc s.vd) } := by
  have last : s.bj.toNat = 3 := by rw [h]; rfl
  rcases calAfter_cases s with ⟨c, _⟩ | ⟨_, more, e⟩ | ⟨_, done, e⟩
  · omega
  · rw [e, calNext, if_pos more]
  · rw [e, calNext, if_neg (by omega)]

/-- The last byte of a group leads to what READ_CAL does after the group. -/
theorem execRun_calByte_last {g : BitVec 3} {x : Byte} {u : State} {rest : List Event} (hb : u.busy = true)
    (hi : u.inbox = rdAnswers x ++ rest) :
    execRun .readCal 5 (calRead g 3 u) = .next (calNext g { u.calByte g 3 x rest with
      stage := u.stage.setIfInBounds g.toNat (accumulate u.acc x) }) :=
  (execRun_calByte hb hi).trans (congrArg _ (calAfter_of_last rfl))

/-- A group of READ_CAL, prompt, is twenty transactions. -/
theorem execRun_calGroup {g : BitVec 3} {c : CalGroup} {u : State} {rest : List Event} (hb : u.busy = true)
    (hi : u.inbox = c.answers ++ rest) :
    execRun .readCal 20 (calRead g 0 u) = .next (calNext g (u.afterGroup g c rest)) := by
  simp only [CalGroup.answers, List.append_assoc] at hi
  refine Eq.trans (execRun_add 5 15 (execRun_calByte_of_lt 0 1 (by decide) hb hi)) ?_
  refine Eq.trans (execRun_add 5 10 (execRun_calByte_of_lt 1 2 (by decide) hb rfl)) ?_
  refine Eq.trans (execRun_add 5 5 (execRun_calByte_of_lt 2 3 (by decide) hb rfl)) ?_
  refine Eq.trans (execRun_calByte_last hb rfl) ?_
  simp only [State.afterGroup, State.calByte, CalGroup.word, CalGroup.busTrace, accumulate_four, List.reverse_append,
    List.append_assoc]

/-- A group of READ_CAL below the last leads to the next one. -/
theorem execRun_calGroup_of_lt (g g' : BitVec 3) {c : CalGroup} {u : State} {rest : List Event}
    (hg : g.toNat < 5 ∧ g + 1 = g') (hb : u.busy = true) (hi : u.inbox = c.answers ++ rest) :
    execRun .readCal 20 (calRead g 0 u) = .next (calRead g' 0 (u.afterGroup g c rest)) := by
  obtain ⟨below, rfl⟩ := hg
  exact (execRun_calGroup hb hi).trans (congrArg _ (if_pos below))

/-- The last group of READ_CAL ends it with the staged words. -/
theorem execRun_calGroup_last {c : CalGroup} {u : State} {rest : List Event} (hb : u.busy = true)
    (hi : u.inbox = c.answers ++ rest) :
    execRun .readCal 20 (calRead 5 0 u) =
      .next (finishWords (u.afterGroup 5 c rest).stage (u.afterGroup 5 c rest)) :=
  execRun_calGroup hb hi

/-! ## The six groups -/

/-- A vector of six words written at each of its places holds what was written. -/
theorem stage_filled (ws : Vector Word 6) (f : Fin 6 → Word) :
    (((((ws.setIfInBounds 0 (f 0)).setIfInBounds 1 (f 1)).setIfInBounds 2 (f 2)).setIfInBounds 3 (f 3)).setIfInBounds 4
      (f 4)).setIfInBounds 5 (f 5) = Vector.ofFn f := by
  refine Vector.ext fun i hi => ?_
  rw [Vector.getElem_ofFn]
  simp only [Vector.getElem_setIfInBounds]
  have places : i = 0 ∨ i = 1 ∨ i = 2 ∨ i = 3 ∨ i = 4 ∨ i = 5 := by omega
  rcases places with rfl | rfl | rfl | rfl | rfl | rfl <;> rfl

/-- Group `k` of the 24 bytes. -/
def calGroup (bytes : Fin 24 → Byte) (k : Fin 6) : CalGroup where
  b0 := bytes ⟨4 * k.val, by omega⟩
  b1 := bytes ⟨4 * k.val + 1, by omega⟩
  b2 := bytes ⟨4 * k.val + 2, by omega⟩
  b3 := bytes ⟨4 * k.val + 3, by omega⟩

/-- What is done for each of the 24 bytes is done group by group. -/
theorem flatten_bytes {α : Type} (f : Fin 24 → List α) :
    ((List.finRange 24).map f).flatten = (List.finRange 6).flatMap fun k =>
      f ⟨4 * k.val, by omega⟩ ++ f ⟨4 * k.val + 1, by omega⟩ ++ f ⟨4 * k.val + 2, by omega⟩ ++
        f ⟨4 * k.val + 3, by omega⟩ := by
  have groups : List.finRange 24 = (List.finRange 6).flatMap fun k =>
      [⟨4 * k.val, by omega⟩, ⟨4 * k.val + 1, by omega⟩, ⟨4 * k.val + 2, by omega⟩, ⟨4 * k.val + 3, by omega⟩] := by
    decide
  rw [groups, ← List.flatMap_def, List.flatMap_assoc]
  simp only [List.flatMap_cons, List.flatMap_nil, List.append_nil, List.append_assoc]

/-- The 24 answers, group by group. -/
theorem calAnswers_eq (bytes : Fin 24 → Byte) :
    ((List.finRange 24).map fun n => rdAnswers (bytes n)).flatten =
      (List.finRange 6).flatMap fun k => (calGroup bytes k).answers :=
  flatten_bytes _

/-- The trace of the 24 VReads, group by group: byte `j` of group `k` is at 0x14 + 4k + j (R250). -/
theorem calTrace_eq (bytes : Fin 24 → Byte) :
    ((List.finRange 24).map fun n => rdTrace (BitVec.ofNat 7 (0x14 + n.val)) (bytes n)).flatten =
      (List.finRange 6).flatMap fun k => (calGroup bytes k).busTrace (BitVec.ofNat 3 k.val) := by
  have address : ∀ k : Fin 6,
      BitVec.ofNat 7 (0x14 + 4 * k.val) = calAddr (BitVec.ofNat 3 k.val) 0 ∧
      BitVec.ofNat 7 (0x14 + (4 * k.val + 1)) = calAddr (BitVec.ofNat 3 k.val) 1 ∧
      BitVec.ofNat 7 (0x14 + (4 * k.val + 2)) = calAddr (BitVec.ofNat 3 k.val) 2 ∧
      BitVec.ofNat 7 (0x14 + (4 * k.val + 3)) = calAddr (BitVec.ofNat 3 k.val) 3 := by decide
  rw [flatten_bytes]
  refine congrArg (fun f => List.flatMap f _) (funext fun k => ?_)
  obtain ⟨first, second, third, fourth⟩ := address k
  rw [CalGroup.busTrace, ← first, ← second, ← third, ← fourth]
  rfl

theorem flatMap_finRange_six {α : Type} (f : Fin 6 → List α) :
    (List.finRange 6).flatMap f = f 0 ++ (f 1 ++ (f 2 ++ (f 3 ++ (f 4 ++ f 5)))) := by
  rw [show List.finRange 6 = [0, 1, 2, 3, 4, 5] from rfl]
  simp only [List.flatMap_cons, List.flatMap_nil, List.append_nil]

/-- Settles O48: the acceptance and one group after another; the words are F32 of their groups' bytes. -/
theorem readCalRunsToItsFinish : Obligations.ReadCalRunsToItsFinish := by
  unfold Obligations.ReadCalRunsToItsFinish
  intro s e bytes rest hb hn hi
  rw [calAnswers_eq, flatMap_finRange_six] at hi
  simp only [List.cons_append, List.append_assoc] at hi
  refine ⟨_, (execRun_succ 120 (exec_accepts rfl hb hn hi)).trans <|
    (execRun_add 20 100 (execRun_calGroup_of_lt 0 1 (by decide) rfl rfl)).trans <|
    (execRun_add 20 80 (execRun_calGroup_of_lt 1 2 (by decide) rfl rfl)).trans <|
    (execRun_add 20 60 (execRun_calGroup_of_lt 2 3 (by decide) rfl rfl)).trans <|
    (execRun_add 20 40 (execRun_calGroup_of_lt 3 4 (by decide) rfl rfl)).trans <|
    (execRun_add 20 20 (execRun_calGroup_of_lt 4 5 (by decide) rfl rfl)).trans <|
    execRun_calGroup_last rfl rfl, rfl, rfl, rfl, rfl, rfl, rfl, rfl, hn, rfl, rfl, rfl, rfl, fun k => ?words, ?trace⟩
  case words =>
    have staged := stage_filled s.stage fun k => (calGroup bytes k).word
    refine Eq.trans (congrArg (fun ws : Vector Word 6 => ws[k.val].toNat) staged) ?_
    rw [Vector.getElem_ofFn]
    exact floatIsBigEndian _ _ _ _
  case trace =>
    rw [calTrace_eq, flatMap_finRange_six]
    simp only [State.busTrace, finishWords, finish, State.afterGroup, accept, clearForIssue, List.reverse_append,
      List.reverse_reverse, List.append_assoc]
    rfl

end Sys2Proof.Machine
end

section
/-! Issue, refusal and acceptance (60_exceptions R272 to R275), and what the host port answers while a command runs or
no result is held (R292, R297). -/
namespace Sys2Proof.Machine

/-! ## The gate (R273) -/

/-- Every command but INIT has the gate of the initialized engine (R273). -/
theorem gateOf_of_op_ne_init {i : Instr} (h : i.op ≠ .init) : gateOf i = gateControl := by
  cases i with
  | init => exact absurd rfl h
  | _ => rfl

/-- A command passes its gate exactly where INITIALIZED is what its row asks: 0 for INIT, 1 for the others (R273). -/
theorem gateOf_eq_none {i : Instr} {s : State} : gateOf i s = none ↔ (s.initialized = true ↔ i.op ≠ .init) := by
  by_cases h : i.op = .init
  · obtain ⟨mode, gain, itime, rfl⟩ := Instr.op_eq_init.mp h
    simpa [gateOf, Instr.op] using gateInit_eq_none (s := s)
  · simpa [gateOf_of_op_ne_init h, h] using gateControl_eq_none

/-! ## Refusal (R275) -/

/-- What a refusal writes: LAST_STATUS and DONE, and what every issue clears (R272, R275). -/
theorem refuse_clearForIssue_pop (st : Status) {s : State} {e : Event} {rest : List Event} (hi : s.inbox = e :: rest) :
    refuse st (clearForIssue s.pop) = { s with
      lastStatus := st, done := true, resultValid := false, resultWords := false, cleanupFailed := false
      inbox := rest, tick := s.tick + 1 } := by
  rw [State.pop_cons hi]
  rfl

/-- An idle engine refuses a command that its gate stops, with the gate's status. -/
theorem exec_refuses {i : Instr} {s : State} {st : Status} {e : Event} {rest : List Event} (hb : s.busy = false)
    (gate : gateOf i s = some st) (hi : s.inbox = e :: rest) :
    exec i s = .next { s with
      lastStatus := st, done := true, resultValid := false, resultWords := false, cleanupFailed := false
      inbox := rest, tick := s.tick + 1 } := by
  rw [exec_idle hb, ← refuse_clearForIssue_pop st hi, issue, gate]

/-- Settles O18: each of the two gates stops its commands, and a stopped command is refused. -/
theorem gatingRefuses : Obligations.GatingRefuses := by
  unfold Obligations.GatingRefuses
  refine ⟨fun i s e rest hb hi hn ho => ?control, fun mode gain itime s e rest hb hi hn => ?init⟩
  case control => exact exec_refuses hb (by simp [gateOf_of_op_ne_init ho, gateControl, hn]) hi
  case init => exact exec_refuses hb (by simp [gateOf, gateInit, hn]) hi

/-- Settles O17: a word that does not decode is refused without a gate, with its decode error's status. -/
theorem undecodableWordIsRefused : Obligations.UndecodableWordIsRefused := by
  unfold Obligations.UndecodableWordIsRefused
  intro s w rest e hb hi hd
  have refused : step s = .next (refuse (decodeStatus e) (clearForIssue s.pop)) := by
    simp [step, turn, State.peek_cons hi, hostWriteTurn, Config.hCmd, hb, hd]
  rw [refused, refuse_clearForIssue_pop _ hi]
  cases e <;> rfl

/-! ## Acceptance (R274) -/

/-- What a rule does before its first step transfers no byte and takes no event. -/
theorem ruleOf_start_keeps_xbuf_inbox (i : Instr) (u : State) :
    ((ruleOf i).start u).xbuf = u.xbuf ∧ ((ruleOf i).start u).inbox = u.inbox := by
  cases i <;> exact ⟨rfl, rfl⟩

/-- Settles O19: acceptance writes CMDL, BUSY and the cleared flags; the start of the rule moves SEQ and keeps the
host's view, the trace and the bytes of the last transaction. -/
theorem acceptedCommandIsLatched : Obligations.AcceptedCommandIsLatched := by
  unfold Obligations.AcceptedCommandIsLatched
  intro i s e rest hb hi gate
  let u := accept i (clearForIssue s.pop)
  have accepted : exec i s = .next ((ruleOf i).start u) := by
    rw [exec_idle hb, issue_of_gate_none _ _ (gateOf_eq_none.mpr gate)]
  obtain ⟨host, -, seq, variant, settling, awaiting⟩ := ruleOf_start i u
  obtain ⟨-, trace, sreg⟩ := ruleOf_start_leavesOp i u
  obtain ⟨xbuf, inbox⟩ := ruleOf_start_keeps_xbuf_inbox i u
  have later : u.inbox = rest := congrArg List.tail hi
  have kept {α : Type} (p : State → α) (hp : ∀ s, p s.hostView = p s := by exact fun _ => rfl) :
      p ((ruleOf i).start u) = p u := hostView_congr p host hp
  exact ⟨_, accepted, kept State.cmdl, kept State.busy, seq, kept State.done, kept State.resultValid,
    kept State.resultWords, kept State.cleanupFailed, trace, xbuf, sreg, inbox.trans later, kept State.lastStatus,
    kept State.initialized, variant, awaiting, settling, kept State.terr, kept State.resByte, kept State.resWord,
    kept State.hostOverrun, kept State.hostRd⟩

/-! ## The host port (R292, R297) -/

/-- RES_BYTE has no value while it holds no result, or the result is of words (R297). -/
theorem hostRegister_resByte_fault {s : State} (h : s.resultValid = false ∨ s.resultWords = true) :
    hostRegister s 0x0C = .error (.noResult 0x0C) := by
  have empty : (s.resultValid && !s.resultWords) = false := by rcases h with h | h <;> simp [h]
  simp [hostRegister, Config.hEngStatus, Config.hTerr, Config.hResByte, empty]

/-- RES_WORD has no value while it holds no result, or the result is a byte (R297). -/
theorem hostRegister_resWord_fault {s : State} {off : Nat} (inMap : 0x10 ≤ off ∧ off < 0x28 ∧ off % 4 = 0)
    (h : s.resultValid = false ∨ s.resultWords = false) : hostRegister s off = .error (.noResult off) := by
  have empty : (s.resultValid && s.resultWords) = false := by rcases h with h | h <;> simp [h]
  have notOther : off ≠ 0x04 ∧ off ≠ 0x08 ∧ off ≠ 0x0C ∧ off ≠ 0x28 := by omega
  simp [hostRegister, Config.hEngStatus, Config.hTerr, Config.hResByte, Config.hFault, Config.hResWord, inMap, notOther,
    empty]

/-- A host read of a register that has no value ends in its fault (R297). -/
theorem step_hostRead_fault {s : State} {off : Nat} {f : Fault} {rest : List Event}
    (hi : s.inbox = .hostRead off :: rest) (hr : hostRegister s off = .error f) : step s = .fault f := by
  simp [step, turn, State.peek_cons hi, hostRead, hr]

/-- Settles O14: RES_BYTE, and the offsets of RES_WORD, which are the words of its range. -/
theorem resultReadWithoutValueFaults : Obligations.ResultReadWithoutValueFaults := by
  unfold Obligations.ResultReadWithoutValueFaults
  intro s off rest hi h
  apply step_hostRead_fault hi
  rcases h with ⟨rfl, empty⟩ | ⟨offset, empty⟩
  · exact hostRegister_resByte_fault empty
  · exact hostRegister_resWord_fault (by omega) empty

/-- Settles O15: a busy engine answers a write of CMD with the overrun alone. -/
theorem writeWhileBusyOnlySetsOverrun : Obligations.WriteWhileBusyOnlySetsOverrun := by
  unfold Obligations.WriteWhileBusyOnlySetsOverrun
  intro s w rest hb hi
  have overruns : step s = .next (overrun s.pop) := by
    simp [step, turn, State.peek_cons hi, hostWriteTurn, Config.hCmd, hb]
  rw [overruns, State.pop_cons hi]
  rfl

end Sys2Proof.Machine
end

section
/-! Waiting and abort (60_exceptions R280, R281, R284): a transaction not answered, an abort at a sleep, and an abort
where it has no effect. -/
namespace Sys2Proof.Machine

/-! ## A transaction not answered (R284, R290) -/

/-- A transaction in flight that the transport does not answer waits: the event is taken, nothing else happens. -/
theorem exec_unanswered (i : Instr) {s : State} {x : Xfer} {e : Event} {rest : List Event} (hb : s.busy = true)
    (hx : s.request = some x) (hi : s.inbox = e :: rest) (unanswered : ∀ a, e ≠ .transport a) :
    exec i s = .next { s with inbox := rest, tick := s.tick + 1 } := by
  obtain ⟨k, op, ph, hq, inFlight⟩ := State.request_eq_some.mp hx
  have noAnswer (a : Answer) : s.peek ≠ .transport a := by simpa [State.peek_cons hi] using unanswered a
  have waits : xferStep (ruleOf i) k op ph s = s.pop := by
    rcases xferStep_cases (ruleOf i) k op ph s with h | ⟨b, hp, _⟩ | ⟨c, hp, _⟩
    · exact h
    · exact absurd hp (noAnswer _)
    · exact absurd hp (noAnswer _)
  rw [exec_busy hb, ← State.pop_cons hi, ← waits]
  simp [advance, hq, Phase.isSleep_of_request inFlight]

/-- Settles O28: only an answer of the transport moves a transaction in flight. -/
theorem unansweredTransactionWaits : Obligations.UnansweredTransactionWaits :=
  fun i _ _ _ _ hb hx hi unanswered => exec_unanswered i hb hx hi unanswered

/-! ## An abort at a sleep (R280) -/

/-- Settles O26: an aborted sleep is the rule's failure, which for every command but TAKE_MEAS_ILLUM is the finish. -/
theorem abortAtASleepEndsTheCommand : Obligations.AbortAtASleepEndsTheCommand := by
  unfold Obligations.AbortAtASleepEndsTheCommand
  intro i s k op ph rest hillum hb hq hi
  have sleeping : s.seq = .chan k op ph ∧ ph.isSleep = true ∨ s.seq = .daSleep k := by
    refine hq.imp_left fun ⟨hq, sleep⟩ => ⟨hq, ?_⟩
    rcases sleep with rfl | rfl | rfl | rfl <;> rfl
  rw [exec_sleep_aborted i hb sleeping hi, ruleOf_fail hillum]
  rfl

/-! ## An abort elsewhere (R281) -/

/-- The command that runs: the one in CMDL while BUSY = 1 (R40). -/
def State.runningCommand (s : State) : Option Instr :=
  if s.busy then (decode s.cmdl).toOption else none

theorem State.busy_of_runningCommand {s : State} {i : Instr} (h : s.runningCommand = some i) : s.busy = true := by
  cases hb : s.busy with
  | true => rfl
  | false => simp only [State.runningCommand, hb, Bool.false_eq_true, if_false, reduceCtorEq] at h

/-- At an abort, or where no other agent acts, the step is the running command's, else the engine waits (R311). -/
theorem step_own {s : State} (h : s.peek = .abort ∨ s.peek = .quiet) :
    step s = s.runningCommand.elim (.next s.pop) fun i => exec i s := by
  have own : turn s = engineTurn s := by rcases h with h | h <;> simp [turn, h]
  rw [step, own, engineTurn, State.runningCommand]
  cases s.busy with
  | false => rfl
  | true => cases decode s.cmdl <;> rfl

/-- An abort that makes the running command, if one runs, only wait has no effect. -/
theorem step_abort_waits {s : State} {rest : List Event} (hi : s.inbox = .abort :: rest)
    (waits : ∀ i, s.runningCommand = some i → exec i s = .next { s with inbox := rest, tick := s.tick + 1 }) :
    step s = .next { s with inbox := rest, tick := s.tick + 1 } := by
  rw [step_own (.inl (State.peek_cons hi)), State.pop_cons hi]
  cases h : s.runningCommand with
  | none => rfl
  | some i => exact waits i h

/-- No abort ends the settle wait (R281, R326). -/
theorem exec_settle_aborted (i : Instr) {s : State} {rest : List Event} (hb : s.busy = true) (hq : s.seq = .settle)
    (hi : s.inbox = .abort :: rest) : exec i s = .next { s with inbox := rest, tick := s.tick + 1 } := by
  rw [exec_busy hb]
  simp only [advance, hq, settleStep, State.peek_cons hi, State.pop_cons hi]

/-- A finish step does not read its event: it goes at an abort as where no other agent acts. -/
theorem step_lookup_abort {s : State} {rest : List Event} (hi : s.inbox = .abort :: rest) (hq : s.seq = .lookup) :
    step s = step { s with inbox := .quiet :: rest } := by
  rw [step_own (.inl (State.peek_cons hi)), step_own (.inr (State.peek_cons rfl)),
    show State.runningCommand { s with inbox := .quiet :: rest } = s.runningCommand from rfl]
  cases h : s.runningCommand with
  | none => exact congrArg _ (State.pop_cons hi)
  | some i =>
    have hb := State.busy_of_runningCommand h
    exact (exec_look i hb hq hi).trans (exec_look i (s := { s with inbox := .quiet :: rest }) hb hq rfl).symm

/-- Settles O27: an idle engine runs no command, a transaction in flight and the settle wait only wait, and a finish
step does not read its event. -/
theorem noOtherAbort : Obligations.NoOtherAbort := by
  unfold Obligations.NoOtherAbort
  intro s rest hi
  refine ⟨fun hb => ?idle, fun x hx => ?inFlight, fun hq => ?settle, step_lookup_abort hi⟩
  case idle =>
    exact step_abort_waits hi fun i h => absurd (State.busy_of_runningCommand h) (by simp [hb])
  case inFlight =>
    exact step_abort_waits hi fun i h => exec_unanswered i (State.busy_of_runningCommand h) hx hi (by simp)
  case settle =>
    exact step_abort_waits hi fun i h => exec_settle_aborted i (State.busy_of_runningCommand h) hq hi

end Sys2Proof.Machine
end

section
/-! Engine reset (70_reset_and_hazards R310) and the settle wait (R326). -/
namespace Sys2Proof.Machine

/-- The settle wait passes over any event but the timer's, whichever command it is in (R326). -/
theorem exec_settle_waits (i : Instr) {s : State} {e : Event} {rest : List Event} (hb : s.busy = true)
    (hq : s.seq = .settle) (hi : s.inbox = e :: rest) (notTimer : e ≠ .timer) :
    exec i s = .next { s with inbox := rest, tick := s.tick + 1 } := by
  have waits : settleStep (ruleOf i).settled s = s.pop := by
    rcases settleStep_cases (ruleOf i).settled s with h | ⟨hp, _⟩
    · exact h
    · exact absurd ((State.peek_cons hi).symm.trans hp) notTimer
  rw [exec_busy hb, ← State.pop_cons hi, ← waits]
  simp only [advance, hq]

/-- Settles O36: of the two things a settle wait can do, only its end needs the timer's event. -/
theorem settleWaitEndsOnlyAtTheTimer : Obligations.SettleWaitEndsOnlyAtTheTimer :=
  fun i _ _ _ hb hq hi notTimer => exec_settle_waits i hb hq hi notTimer

/-- Where engine reset is asserted the step is the reset, before any turn of the engine's own (R310). -/
theorem step_engineReset {s : State} (h : s.peek = .reset) : step s = .next (engineReset s.pop) := by
  simp only [step, turn, h]

/-- Settles O11: the reset keeps of the state only the inbox and the tick, which are past the reset event. -/
theorem engineResetFromAnyState : Obligations.EngineResetFromAnyState := by
  unfold Obligations.EngineResetFromAnyState
  intro s rest hi
  rw [step_engineReset (State.peek_cons hi), State.pop_cons hi]
  rfl

end Sys2Proof.Machine
end
